-- ==== Sys2Proof/Word.lean ====
section
/-! DEFINITION. The widths of the engine's values (spec 00_scope.md R7, R10: every value is an unsigned bit vector of a stated width). -/

namespace Sys2Proof

/-- A register or command word of 32 bits (R30 to R36, R70). -/
abbrev Word := BitVec 32

/-- A nibble: an element of GF(2^4), a state cell or a key nibble (R7). -/
abbrev Nibble := BitVec 4

/-- The 64-bit block SV (R20). -/
abbrev Block := BitVec 64

/-- The 80-bit key KV (R23). -/
abbrev Key := BitVec 80

end Sys2Proof
end

