-- ==== Sys2Proof/Syntax.lean ====
section
/-! DEFINITION. The ten commands of spec/opcode_table.json (30_encoding.md R74) and the error codes (60_exceptions.md R173). -/

namespace Sys2Proof

/-- A command: one constructor per row of the opcode table, operands as in R73. -/
inductive Instr where
  | nop
  | encrypt
  | addkey (g : BitVec 4)      -- boundary index
  | addconst (r : BitVec 6)    -- round index
  | subcells
  | shiftrows
  | mixcols
  | round (r : BitVec 6)       -- round index
  | step (g : BitVec 4)        -- group index
  | gfmul (a b : Nibble)       -- GF(2^4) operands
  deriving DecidableEq, Repr

/-- The values of STATUS.ERRCODE that the engine produces (R173). Codes 5 to 15 are never produced, so no constructor stands for them (log entry 21). -/
inductive ErrCode where
  | none
  | illegalOpcode
  | reservedField
  | operandRange
  | busyWrite
  deriving DecidableEq, Repr

end Sys2Proof
end

