-- ==== Sys2Proof/WellFormed.lean ====
section
/-! DEFINITION. When a command's operands are legal (spec 30_encoding.md R73, R77). -/

namespace Sys2Proof

/-- The legal operand ranges: r ≤ 47, g ≤ 12 for ADDKEY, s ≤ 11 for STEP; the other commands have no range check (R77). -/
def Instr.wf : Instr → Bool
  | .nop => true
  | .encrypt => true
  | .addkey g => g.toNat ≤ 12
  | .addconst r => r.toNat ≤ 47
  | .subcells => true
  | .shiftrows => true
  | .mixcols => true
  | .round r => r.toNat ≤ 47
  | .step g => g.toNat ≤ 11
  | .gfmul _ _ => true

end Sys2Proof
end

