-- ==== Sys2Proof/Decode.lean ====
section
/-! DEFINITION. Decoding a command word (spec 30_encoding.md R71 to R79), total on every 32-bit word, and the encoder (R80). -/

namespace Sys2Proof

/-! ### The fields of a command word (R71) -/

/-- OP, bits [3:0]. -/
def opField (w : Word) : BitVec 4 := w.extractLsb' 0 4
/-- RSV0, bits [7:4]. -/
def rsv0Field (w : Word) : BitVec 4 := w.extractLsb' 4 4
/-- RI, bits [13:8]. -/
def riField (w : Word) : BitVec 6 := w.extractLsb' 8 6
/-- RSV1, bits [15:14]. -/
def rsv1Field (w : Word) : BitVec 2 := w.extractLsb' 14 2
/-- GI, bits [19:16]. -/
def giField (w : Word) : BitVec 4 := w.extractLsb' 16 4
/-- GA, bits [23:20]. -/
def gaField (w : Word) : BitVec 4 := w.extractLsb' 20 4
/-- GB, bits [27:24]. -/
def gbField (w : Word) : BitVec 4 := w.extractLsb' 24 4
/-- RSV2, bits [31:28]. -/
def rsv2Field (w : Word) : BitVec 4 := w.extractLsb' 28 4

/-! ### The opcode map (R74) -/

/-- The `mask` column of R74. -/
def Instr.mask : Instr → Word
  | .nop => 0xFFFFFFFF#32
  | .encrypt => 0xFFFFFFFF#32
  | .addkey _ => 0xFFF0FFFF#32
  | .addconst _ => 0xFFFFC0FF#32
  | .subcells => 0xFFFFFFFF#32
  | .shiftrows => 0xFFFFFFFF#32
  | .mixcols => 0xFFFFFFFF#32
  | .round _ => 0xFFFFC0FF#32
  | .step _ => 0xFFF0FFFF#32
  | .gfmul _ _ => 0xF00FFFFF#32

/-- The `match` column of R74. -/
def Instr.pattern : Instr → Word
  | .nop => 0x00000000#32
  | .encrypt => 0x00000001#32
  | .addkey _ => 0x00000002#32
  | .addconst _ => 0x00000003#32
  | .subcells => 0x00000004#32
  | .shiftrows => 0x00000005#32
  | .mixcols => 0x00000006#32
  | .round _ => 0x00000007#32
  | .step _ => 0x00000008#32
  | .gfmul _ _ => 0x00000009#32

/-- The row that the opcode selects, with its operand fields read as unsigned numbers (R73); none for 0xA to 0xF (R75). -/
def selectRow (w : Word) : Option Instr :=
  match (opField w).toNat with
  | 0 => some .nop
  | 1 => some .encrypt
  | 2 => some (.addkey (giField w))
  | 3 => some (.addconst (riField w))
  | 4 => some .subcells
  | 5 => some .shiftrows
  | 6 => some .mixcols
  | 7 => some (.round (riField w))
  | 8 => some (.step (giField w))
  | 9 => some (.gfmul (gaField w) (gbField w))
  | _ => none

/-- What decoding answers: a command or an error code (R79). -/
inductive Decoded where
  | command (i : Instr)
  | error (c : ErrCode)
  deriving DecidableEq, Repr

/-- The decode function, its checks in the order of R79: the opcode, the reserved and unused fields, the operand range. -/
def decode (w : Word) : Decoded :=
  match selectRow w with
  | none => .error .illegalOpcode
  | some i =>
    if w &&& i.mask ≠ i.pattern then .error .reservedField
    else if i.wf then .command i
    else .error .operandRange

/-! ### The encoder (R80) -/

/-- The word of a command, by the table of R80. -/
def encode : Instr → Word
  | .nop => 0x00000000#32
  | .encrypt => 0x00000001#32
  | .addkey g => 0x00000002#32 ||| (g.setWidth 32 <<< 16)
  | .addconst r => 0x00000003#32 ||| (r.setWidth 32 <<< 8)
  | .subcells => 0x00000004#32
  | .shiftrows => 0x00000005#32
  | .mixcols => 0x00000006#32
  | .round r => 0x00000007#32 ||| (r.setWidth 32 <<< 8)
  | .step g => 0x00000008#32 ||| (g.setWidth 32 <<< 16)
  | .gfmul a b => 0x00000009#32 ||| (a.setWidth 32 <<< 20) ||| (b.setWidth 32 <<< 24)

/-- The command of a table word of `nbits` bits: every bit above them is 0. The engine has no byte order (R54), so the word is the number itself. -/
def decodeTableWord (nbits w : Nat) : Option Instr :=
  match decode (BitVec.ofNat 32 (w % 2 ^ nbits)) with
  | .command i => some i
  | .error _ => none

end Sys2Proof
end

