-- ==== Sys2Proof/Config.lean ====
section
/-! DEFINITION. What an implementation fixes (spec 00_scope.md R8) and the free values of what the spec leaves unspecified. -/

namespace Sys2Proof

/-- The three values of the OPEN parameter `KEY_SCHEDULE` (R133, D10). -/
inductive KeySchedule where
  | ledCyclic   -- KS_LED_CYCLIC
  | doc46       -- KS_DOC_4_6
  | alternate   -- KS_ALTERNATE
  deriving DecidableEq, Repr

/-- The parameters of one implementation (R8, R26). They are not architectural state and never change.
State holds them so that every statement ranges over every configuration (log entry 2). -/
structure Config where
  /-- `LED_BASE`, the address of the register window (R50). -/
  ledBase     : Nat
  /-- `LED_IRQ_LINE`, the platform input that `irq` drives (R8, R180). -/
  irqLine     : Nat
  /-- `KEY_SCHEDULE` (R133). -/
  keySchedule : KeySchedule
  /-- `SBOX_TABLE`, entry x at position x (R27). -/
  sbox        : List Nibble
  /-- `MC_MATRIX`, row j at position j (R28). -/
  mc          : List (List Nibble)
  /-- `RC_TABLE`, the constant of round r at position r (R29). -/
  rc          : List Nat
  /-- `LAT(op)` in clock cycles, opcode order; no rule depends on it (R208, log entry 17). -/
  lat         : List Nat
  deriving DecidableEq, Repr

/-- The free value of the n-th draw where a read returns an unspecified word (R22, R33, R34; I1). No body: nothing can be proved of it. -/
opaque Config.freeWord : Nat → Word

/-- The free value of the n-th draw for STATE after a reset event (R195, R196; I2, I4). -/
opaque Config.freeBlock : Nat → Block

/-- The free value of the n-th draw for KEY after a reset event (R195; I2). -/
opaque Config.freeKey : Nat → Key

/-- The free value of the n-th draw for GFRES after a reset event (R195; I2). -/
opaque Config.freeNibble : Nat → Nibble

end Sys2Proof
end

