-- ==== Sys2Proof/Machine/Operands.lean ====
section
/-! DEFINITION. The views of the data registers that the commands and the bus use: state cells, key nibbles, bytes and register halves (spec 10_state.md R20 to R25). -/

namespace Sys2Proof.Machine

/-! ### STATE as a 4×4 nibble matrix (R20) -/

/-- `S[r][c]` = SV[63 - 4(4r+c) : 60 - 4(4r+c)]. -/
def cell (sv : Block) (r c : Fin 4) : Nibble := sv.extractLsb' (60 - 4 * (4 * r.val + c.val)) 4

/-- A row, column 0 the most significant nibble. -/
def packRow (f : Fin 4 → Nibble) : BitVec 16 := f 0 ++ f 1 ++ f 2 ++ f 3

/-- The block with the given cells, row 0 the most significant 16 bits. -/
def ofCells (f : Fin 4 → Fin 4 → Nibble) : Block :=
  packRow (f 0) ++ packRow (f 1) ++ packRow (f 2) ++ packRow (f 3)

/-- Byte j of the message or the ciphertext (j in 0..7) = SV[63 - 8j : 56 - 8j] (R21). -/
def blockByte (sv : Block) (j : Nat) : BitVec 8 := sv.extractLsb' (56 - 8 * j) 8

/-- STATE_HI = SV[63:32] (R20). -/
def stateHi (sv : Block) : Word := sv.extractLsb' 32 32
/-- STATE_LO = SV[31:0] (R20). -/
def stateLo (sv : Block) : Word := sv.extractLsb' 0 32
/-- SV after a write of STATE_HI. -/
def withStateHi (sv : Block) (v : Word) : Block := v ++ stateLo sv
/-- SV after a write of STATE_LO. -/
def withStateLo (sv : Block) (v : Word) : Block := stateHi sv ++ v

/-! ### KEY as 20 nibbles (R23, R24) -/

/-- `KN[n]` = KV[79 - 4n : 76 - 4n] (n in 0..19). -/
def keyNibble (kv : Key) (n : Nat) : Nibble := kv.extractLsb' (76 - 4 * n) 4
/-- Key byte j (j in 0..9) = KV[79 - 8j : 72 - 8j] (R23). -/
def keyByte (kv : Key) (j : Nat) : BitVec 8 := kv.extractLsb' (72 - 8 * j) 8
/-- `KH0[i]`, the first 16 key nibbles (R24). -/
def keyHalf0 (kv : Key) (i : Nat) : Nibble := keyNibble kv i
/-- `KH1[i]`, the last 16 key nibbles (R24; they overlap, C2). -/
def keyHalf1 (kv : Key) (i : Nat) : Nibble := keyNibble kv (i + 4)

/-- KEY_HI = KV[79:48] (R23). -/
def keyHi (kv : Key) : Word := kv.extractLsb' 48 32
/-- KEY_MID = KV[47:16] (R23). -/
def keyMid (kv : Key) : Word := kv.extractLsb' 16 32
/-- KEY_LO: KV[15:0], the reserved bits [31:16] reading 0 (R23). -/
def keyLo (kv : Key) : Word := (kv.extractLsb' 0 16).setWidth 32
/-- KV after a write of KEY_HI. -/
def withKeyHi (kv : Key) (v : Word) : Key := v ++ kv.extractLsb' 0 48
/-- KV after a write of KEY_MID. -/
def withKeyMid (kv : Key) (v : Word) : Key := keyHi kv ++ v ++ kv.extractLsb' 0 16
/-- KV after a write of KEY_LO; bits [31:16] of the value are ignored. -/
def withKeyLo (kv : Key) (v : Word) : Key := kv.extractLsb' 16 64 ++ v.extractLsb' 0 16

end Sys2Proof.Machine
end

