-- ==== Sys2Proof/Machine/Cipher.lean ====
section
/-! DEFINITION. The named functions of the cipher (spec 00_scope.md R13): each takes the state value and returns a new one, every cell read before any is written (R11). -/

namespace Sys2Proof.Machine

/-! ### The GF(2^4) multiplier (40_gf_multiplier.md R90) -/

/-- Multiplication by x modulo x^4 + x + 1. -/
def xtime (a : Nibble) : Nibble :=
  if a.getLsbD 3 then (a <<< 1) ^^^ 0x3#4 else a <<< 1

/-- One turn of the multiply-and-reduce loop at bit i of b, on the accumulator and the shifted a. -/
def gfMulTurn (b : Nibble) (st : Nibble × Nibble) (i : Nat) : Nibble × Nibble :=
  (if b.getLsbD i then st.1 ^^^ st.2 else st.1, xtime st.2)

/-- `gf_mul(a, b)`: the loop over the four bits of b, bit 0 first (R90). -/
def gfMul (a b : Nibble) : Nibble :=
  ([0, 1, 2, 3].foldl (gfMulTurn b) (0#4, a)).1

/-! ### The four sub-steps of a round -/

/-- `SBOX_TABLE[x]` (R27). -/
def sboxAt (sbox : List Nibble) (x : Nibble) : Nibble := sbox.getD x.toNat 0#4

/-- `SubCells(S)` (R100). -/
def subCells (sbox : List Nibble) (S : Block) : Block :=
  ofCells fun r c => sboxAt sbox (cell S r c)

/-- `ShiftRows(S)`: row r rotates left by r cells (R104). -/
def shiftRows (S : Block) : Block :=
  ofCells fun r c => cell S r (c + r)

/-- `MC[j][k]` (R28). -/
def mcAt (mc : List (List Nibble)) (j k : Fin 4) : Nibble := (mc.getD j.val []).getD k.val 0#4

/-- `MixColumnsSerial(S)` (R108). -/
def mixColumns (mc : List (List Nibble)) (S : Block) : Block :=
  ofCells fun j c =>
    gfMul (mcAt mc j 0) (cell S 0 c) ^^^ gfMul (mcAt mc j 1) (cell S 1 c)
      ^^^ gfMul (mcAt mc j 2) (cell S 2 c) ^^^ gfMul (mcAt mc j 3) (cell S 3 c)

/-- `RC_TABLE[r]`, 6 bits (R29). -/
def rcAt (rc : List Nat) (r : Nat) : BitVec 6 := BitVec.ofNat 6 (rc.getD r 0)

/-- The value that AddConstants XORs into each cell for the 6-bit constant rc (R120): 1, 2, 3 in column 0 of rows 1 to 3,
rc[5:3] in column 1 of the even rows, rc[2:0] in column 1 of the odd rows. -/
def constantCell (rc : BitVec 6) (r c : Fin 4) : Nibble :=
  match r.val, c.val with
  | 1, 0 => 0x1#4
  | 2, 0 => 0x2#4
  | 3, 0 => 0x3#4
  | 0, 1 => (rc.extractLsb' 3 3).setWidth 4
  | 1, 1 => (rc.extractLsb' 0 3).setWidth 4
  | 2, 1 => (rc.extractLsb' 3 3).setWidth 4
  | 3, 1 => (rc.extractLsb' 0 3).setWidth 4
  | _, _ => 0x0#4

/-- `AddConstants(S, r)` (R120). -/
def addConstants (rc : List Nat) (r : Nat) (S : Block) : Block :=
  ofCells fun i c => cell S i c ^^^ constantCell (rcAt rc r) i c

/-! ### Key addition (43_key_addition.md) -/

/-- `Subkey(g)[i]` for each key schedule (R133). -/
def subkeyNibble (ks : KeySchedule) (kv : Key) (g i : Nat) : Nibble :=
  match ks with
  | .ledCyclic => keyNibble kv ((16 * g + i) % 20)
  | .doc46 => (if g % 2 = 0 then keyHalf0 kv i else 0#4) ^^^ keyHalf1 kv i
  | .alternate => if g % 2 = 0 then keyHalf0 kv i else keyHalf1 kv i

/-- `Subkey(g)` as the 64-bit value XORed into SV (R131). -/
def subkey (ks : KeySchedule) (kv : Key) (g : Nat) : Block :=
  ofCells fun r c => subkeyNibble ks kv g (4 * r.val + c.val)

/-- `AddRoundKey(S, g)` (R131). -/
def addRoundKey (ks : KeySchedule) (kv : Key) (g : Nat) (S : Block) : Block :=
  ofCells fun r c => cell S r c ^^^ subkeyNibble ks kv g (4 * r.val + c.val)

/-! ### The round and the cipher (44_round_sequencer.md) -/

/-- `Round(S, r)` (R145). -/
def cipherRound (cfg : Config) (r : Nat) (S : Block) : Block :=
  mixColumns cfg.mc (shiftRows (subCells cfg.sbox (addConstants cfg.rc r S)))

/-- One round group: rounds 4g .. 4g+3, then the key addition at boundary g+1 (R147 step 4, R157). -/
def roundGroup (cfg : Config) (kv : Key) (S : Block) (g : Nat) : Block :=
  addRoundKey cfg.keySchedule kv (g + 1)
    (cipherRound cfg (4 * g + 3) (cipherRound cfg (4 * g + 2) (cipherRound cfg (4 * g + 1) (cipherRound cfg (4 * g) S))))

/-- `Encrypt(KV, SV)`: the key addition at boundary 0, then the 12 groups in order (R147). -/
def cipherEncrypt (cfg : Config) (kv : Key) (sv : Block) : Block :=
  (List.range 12).foldl (roundGroup cfg kv) (addRoundKey cfg.keySchedule kv 0 sv)

end Sys2Proof.Machine
end

