-- ==== Sys2Proof/Machine/Tables.lean ====
section
/-! DEFINITION. The default tables (spec 10_state.md R27 to R29), the configuration of State.reset, and the check of a configuration (R8, R26, D30). -/

namespace Sys2Proof.Machine

/-- The default SBOX_TABLE (R27; PRESUMED by the spec itself, G1; log entry 12). -/
def defaultSbox : List Nibble :=
  [0xC#4, 0x5#4, 0x6#4, 0xB#4, 0x9#4, 0x0#4, 0xA#4, 0xD#4, 0x3#4, 0xE#4, 0xF#4, 0x8#4, 0x4#4, 0x7#4, 0x1#4, 0x2#4]

/-- The default MC_MATRIX (R28; G2; log entry 12). -/
def defaultMatrix : List (List Nibble) :=
  [[0x4#4, 0x1#4, 0x2#4, 0x2#4], [0x8#4, 0x6#4, 0x5#4, 0x6#4], [0xB#4, 0xE#4, 0xA#4, 0x9#4], [0x2#4, 0x2#4, 0xF#4, 0xB#4]]

/-- The default RC_TABLE (R29; G3; log entry 12). -/
def defaultRoundConstants : List Nat :=
  [0x01, 0x03, 0x07, 0x0F, 0x1F, 0x3E, 0x3D, 0x3B] ++ [0x37, 0x2F, 0x1E, 0x3C, 0x39, 0x33, 0x27, 0x0E] ++
  [0x1D, 0x3A, 0x35, 0x2B, 0x16, 0x2C, 0x18, 0x30] ++ [0x21, 0x02, 0x05, 0x0B, 0x17, 0x2E, 0x1C, 0x38] ++
  [0x31, 0x23, 0x06, 0x0D, 0x1B, 0x36, 0x2D, 0x1A] ++ [0x34, 0x29, 0x12, 0x24, 0x08, 0x11, 0x22, 0x04]

/-- One step of the generator of the default round constants: `rc <- {rc[4:0], rc[5] ^ rc[4] ^ 1}` (R29). -/
def nextRoundConstant (rc : BitVec 6) : BitVec 6 :=
  rc.extractLsb' 0 5 ++ (rc.extractLsb' 5 1 ^^^ rc.extractLsb' 4 1 ^^^ 1#1)

/-- The nominal LAT(op), opcodes 0x0 to 0x9 (R208). -/
def nominalLatencies : List Nat := [1, 61, 1, 1, 1, 1, 1, 1, 5, 1]

/-- The configuration of State.reset: the default tables (R8); DESIGN CHOICE for the OPEN parameters (log entry 2). -/
def defaultConfig : Config :=
  { ledBase := 0, irqLine := 0, keySchedule := .ledCyclic,
    sbox := defaultSbox, mc := defaultMatrix, rc := defaultRoundConstants, lat := nominalLatencies }

/-- SBOX_TABLE is a bijection on {0..15}: 16 entries in which every nibble appears (R26, R27, D30). -/
def sboxOk (sbox : List Nibble) : Bool :=
  sbox.length == 16 && (List.range 16).all fun x => sbox.contains (BitVec.ofNat 4 x)

/-- RC_TABLE has exactly 48 entries, each at most 0x3F (R26, D30). -/
def rcOk (rc : List Nat) : Bool :=
  rc.length == 48 && rc.all fun x => decide (x ≤ 0x3F)

/-- MC_MATRIX is 4×4 (R8). -/
def mcOk (mc : List (List Nibble)) : Bool :=
  mc.length == 4 && mc.all fun row => row.length == 4

/-- A configuration that the model takes: the tables' constraints (R26, D30), the window's alignment (R50) and LAT(op) ≥ 1 for ten commands (R8). -/
def configOk (cfg : Config) : Bool :=
  sboxOk cfg.sbox && rcOk cfg.rc && mcOk cfg.mc && cfg.ledBase % 64 == 0
    && cfg.lat.length == 10 && cfg.lat.all fun n => decide (1 ≤ n)

end Sys2Proof.Machine
end

