-- ==== Sys2Proof/Machine/State.lean ====
section
/-! DEFINITION. The state of the machine: the engine's architectural state (spec 10_state.md), its configuration, and the host turns still to come. -/

namespace Sys2Proof.Machine

/-- What the outside world does in one turn (R12, R14, R53, R195). Addresses are host addresses, widths are in bytes. -/
inductive Event where
  /-- No host access: the engine alone acts. -/
  | quiet
  /-- A read of `width` bytes at `addr`. -/
  | read (addr width : Nat)
  /-- A write of `v`, `width` bytes at `addr`. -/
  | write (addr width : Nat) (v : Word)
  /-- The reset input rises. -/
  | assertReset
  /-- The reset input falls. -/
  | releaseReset
  deriving DecidableEq, Repr

/-- A turn: an event, then `micro` micro-steps of the engine before the next turn. A list of turns is one interleaving (R57, R177; log entry 1). -/
structure Turn where
  event : Event
  micro : Nat
  deriving DecidableEq, Repr

/-- The machine's state. -/
structure State where
  /-- The configuration: constant (R26). -/
  cfg       : Config
  /-- STATE: the 64-bit SV (R20). -/
  sv        : Block
  /-- KEY: the 80-bit KV (R23). -/
  kv        : Key
  /-- GFRES[3:0] (R34). -/
  gfres     : Nibble
  /-- STATUS.BUSY (R31). -/
  busy      : Bool
  /-- STATUS.DONE (R31). -/
  done      : Bool
  /-- STATUS.ERR (R31). -/
  err       : Bool
  /-- STATUS.ERRCODE (R31, R173). -/
  errCode   : ErrCode
  /-- IRQEN.DONE_IE (R32). -/
  doneIe    : Bool
  /-- IRQEN.ERR_IE (R32). -/
  errIe     : Bool
  /-- PROGRESS.RCNT (R33). -/
  rcnt      : BitVec 6
  /-- PROGRESS.KCNT (R33). -/
  kcnt      : BitVec 4
  /-- The command being executed, none when idle (R37). -/
  cur       : Option Instr
  /-- The index of the next micro-step of `cur` (R37). -/
  seq       : Nat
  /-- The level of the reset input (R195). -/
  inReset   : Bool
  /-- The model's own: the turns still to come, the next first. -/
  inputs    : List Turn
  /-- The model's own: the micro-steps the engine still gets in this turn. -/
  grant     : Nat
  /-- The model's own: the values that reads returned, the newest first (R12). -/
  responses : List Word
  /-- The model's own: how many free values have been drawn. -/
  draws     : Nat
  deriving DecidableEq, Repr

/-- Why the machine stops with a fault. -/
inductive Fault where
  /-- Raised by a bus access to an address outside the register window: such an address does not belong to the engine (R50). Safe: the model stops where another device would answer (log entry 8). -/
  | outsideWindow
  deriving DecidableEq, Repr

/-- Why the model refuses a step. -/
inductive Refusal where
  /-- Raised by an arm of exec whose instruction has no meaning yet. Safe. -/
  | notModelled (mnemonic : String)
  /-- Raised by step under a configuration that R26, R50 or R8 rules out (D30). Safe: the spec asks for the refusal. -/
  | badConfiguration
  /-- Raised by a bus access that is not 4 bytes wide (R53). Safe: the spec asks for the refusal. -/
  | notWordAccess
  /-- Raised by a bus access at an offset that is not a multiple of 4 (R53). Safe: the spec asks for the refusal. -/
  | misaligned
  /-- Raised by a bus access while the reset input is asserted (R196). Safe: the spec asks for the refusal. -/
  | accessDuringReset
  /-- Raised by a host program that tests a host variable it never assigned (R81 gives no value). Safe (log entry 16). -/
  | hostVariableUnset
  /-- Raised by a host program that branches to a label it does not hold (R81). Safe (log entry 16). -/
  | hostLabelMissing
  deriving DecidableEq, Repr

/-- The table of R195: control state as given, the data registers at the given values, the configuration as it was. -/
def State.atReset (cfg : Config) (sv : Block) (kv : Key) (gfres : Nibble) : State :=
  { cfg := cfg, sv := sv, kv := kv, gfres := gfres,
    busy := false, done := false, err := false, errCode := .none,
    doneIe := false, errIe := false, rcnt := 0#6, kcnt := 0#4,
    cur := none, seq := 0, inReset := false,
    inputs := [], grant := 0, responses := [], draws := 0 }

/-- The machine right after reset (R195, R197). The data registers' zeros are DESIGN CHOICE, unsafe (log entry 3). -/
def State.reset : State := State.atReset defaultConfig 0#64 0#80 0#4

end Sys2Proof.Machine
end

