-- ==== Sys2Proof/Machine/Flags.lean ====
section
/-! DEFINITION. The interrupt output and the words of the status registers (spec 10_state.md R31 to R34, R40; 60_exceptions.md R173). -/

namespace Sys2Proof.Machine

/-- The 4-bit number of an error code (R173). -/
def errNumber : ErrCode → BitVec 4
  | .none => 0#4
  | .illegalOpcode => 1#4
  | .reservedField => 2#4
  | .operandRange => 3#4
  | .busyWrite => 4#4

/-- The interrupt output (R40, R180). -/
def State.irq (s : State) : Bool := (s.done && s.doneIe) || (s.err && s.errIe)

/-- The platform interrupt input that is driven high, if any (R180, `LED_IRQ_LINE`). -/
def State.irqDrives (s : State) : Option Nat := if s.irq then some s.cfg.irqLine else none

/-- STATUS as a word: IRQ bit 8, ERRCODE bits [7:4], ERR bit 2, DONE bit 1, BUSY bit 0, the rest 0 (R31). -/
def State.statusWord (s : State) : Word :=
  0#23 ++ BitVec.ofBool s.irq ++ errNumber s.errCode ++ 0#1 ++ BitVec.ofBool s.err ++ BitVec.ofBool s.done ++ BitVec.ofBool s.busy

/-- IRQEN as a word: ERR_IE bit 1, DONE_IE bit 0 (R32). -/
def State.irqenWord (s : State) : Word :=
  0#30 ++ BitVec.ofBool s.errIe ++ BitVec.ofBool s.doneIe

/-- PROGRESS as a word: KCNT bits [11:8], RCNT bits [5:0] (R33). -/
def State.progressWord (s : State) : Word := 0#20 ++ s.kcnt ++ 0#2 ++ s.rcnt

/-- GFRES as a word (R34). -/
def State.gfresWord (s : State) : Word := 0#28 ++ s.gfres

end Sys2Proof.Machine
end

