-- ==== Sys2Proof/Machine/Ops.lean ====
section
/-! DEFINITION. The named operations on the state: rejection and its clearing, acceptance and completion of a command, writes of the data registers, reset, and what a read returns. -/

namespace Sys2Proof.Machine

/-! ### Errors (60_exceptions.md) -/

/-- `raise Error(code)`: the first code since ERR was 0 is kept; nothing else changes (R172, R177). -/
def State.raiseError (c : ErrCode) (s : State) : State :=
  { s with err := true, errCode := if s.err then s.errCode else c }

/-- A write of v to STATUS: bit 1 clears DONE, bit 2 clears ERR and ERRCODE (R31); the return from an error (R179). -/
def State.writeStatus (v : Word) (s : State) : State :=
  { s with
    done := if v.getLsbD 1 then false else s.done
    err := if v.getLsbD 2 then false else s.err
    errCode := if v.getLsbD 2 then .none else s.errCode }

/-- A write of v to IRQEN: bits [1:0] are stored (R32). -/
def State.writeIrqen (v : Word) (s : State) : State :=
  { s with doneIe := v.getLsbD 0, errIe := v.getLsbD 1 }

/-! ### The command life cycle (R154) -/

/-- Acceptance of a command: `cur`, `seq`, BUSY and DONE, and for ENCRYPT the reset of PROGRESS (R171). -/
def State.accept (i : Instr) (s : State) : State :=
  { s with
    cur := some i
    seq := 0
    busy := true
    done := false
    rcnt := if i = .encrypt then 0#6 else s.rcnt
    kcnt := if i = .encrypt then 0#4 else s.kcnt }

/-- Completion of the running command: BUSY <- 0, DONE <- 1, `cur` cleared (R154). `seq` keeps its value: only acceptance and micro-steps write it (R37). -/
def State.complete (s : State) : State :=
  { s with busy := false, done := true, cur := none }

/-- `seq` rises by 1 after a micro-step (R37). -/
def State.nextSeq (s : State) : State := { s with seq := s.seq + 1 }

/-! ### Writes of the data registers and counters -/

/-- STATE <- x. -/
def State.setSv (x : Block) (s : State) : State := { s with sv := x }
/-- KEY <- x; only host writes use it (R25). -/
def State.setKv (x : Key) (s : State) : State := { s with kv := x }
/-- GFRES[3:0] <- x (R92). -/
def State.setGfres (x : Nibble) (s : State) : State := { s with gfres := x }
/-- RCNT <- RCNT + 1 (R152). -/
def State.bumpRcnt (s : State) : State := { s with rcnt := s.rcnt + 1#6 }
/-- KCNT <- KCNT + 1 (R152). -/
def State.bumpKcnt (s : State) : State := { s with kcnt := s.kcnt + 1#4 }

/-! ### Reset (70_reset_and_hazards.md R195, R196) -/

/-- The reset input rises: the table of R195 with a free draw for each data register (I2, I4), a running command abandoned (R196).
The turns, the responses and the configuration are not the engine's state. An input already high does nothing more (log entry 18). -/
def State.assertReset (s : State) : State :=
  if s.inReset then s
  else
    { State.atReset s.cfg (Config.freeBlock s.draws) (Config.freeKey s.draws) (Config.freeNibble s.draws) with
      inReset := true, inputs := s.inputs, grant := s.grant, responses := s.responses, draws := s.draws + 1 }

/-- The reset input falls: the state stays as R195 gives it. -/
def State.releaseReset (s : State) : State := { s with inReset := false }

/-! ### Reads -/

/-- A read returns v (R12). -/
def State.respond (v : Word) (s : State) : State := { s with responses := v :: s.responses }

/-- A read returns an unspecified value in the bits of `fields` and 0 elsewhere (I1; log entry 5). -/
def State.respondFree (fields : Word) (s : State) : State :=
  { s with responses := (Config.freeWord s.draws &&& fields) :: s.responses, draws := s.draws + 1 }

end Sys2Proof.Machine
end

