-- ==== Sys2Proof/Machine/MicroSteps.lean ====
section
/-! DEFINITION. What each micro-step of each command does (spec 44_round_sequencer.md R150): one definition per command. -/

namespace Sys2Proof.Machine

/-- One AddRoundKey applied to STATE (R131). -/
def State.keyStep (g : Nat) (s : State) : State :=
  s.setSv (addRoundKey s.cfg.keySchedule s.kv g s.sv)

/-- One round applied to STATE (R145). -/
def State.roundStep (r : Nat) (s : State) : State :=
  s.setSv (cipherRound s.cfg r s.sv)

/-- NOP: nothing (R155). -/
def microNop (s : State) : State := s

/-- GFMUL a, b (R92). -/
def microGfmul (a b : Nibble) (s : State) : State := s.setGfres (gfMul a b)

/-- ADDKEY g (R137). -/
def microAddkey (g : BitVec 4) (s : State) : State := s.keyStep g.toNat

/-- ADDCONST r (R123). -/
def microAddconst (r : BitVec 6) (s : State) : State := s.setSv (addConstants s.cfg.rc r.toNat s.sv)

/-- SUBCELLS (R102). -/
def microSubcells (s : State) : State := s.setSv (subCells s.cfg.sbox s.sv)

/-- SHIFTROWS (R106). -/
def microShiftrows (s : State) : State := s.setSv (shiftRows s.sv)

/-- MIXCOLS (R110). -/
def microMixcols (s : State) : State := s.setSv (mixColumns s.cfg.mc s.sv)

/-- ROUND r (R156). -/
def microRound (r : BitVec 6) (s : State) : State := s.roundStep r.toNat

/-- Micro-step k of STEP s: k in 0..3 a round, k = 4 the key addition (R157). -/
def microStepGroup (g : BitVec 4) (k : Nat) (s : State) : State :=
  if k < 4 then s.roundStep (4 * g.toNat + k) else s.keyStep (g.toNat + 1)

/-- Micro-step k of ENCRYPT, counting in PROGRESS (R150, R152, R158). -/
def microEncrypt (k : Nat) (s : State) : State :=
  if k = 0 then (s.keyStep 0).bumpKcnt
  else if (k - 1) % 5 < 4 then (s.roundStep (4 * ((k - 1) / 5) + (k - 1) % 5)).bumpRcnt
  else (s.keyStep ((k - 1) / 5 + 1)).bumpKcnt

end Sys2Proof.Machine
end

