-- ==== Sys2Proof/Machine/Sequencer.lean ====
section
/-! DEFINITION. The round-loop sequencer (spec 44_round_sequencer.md R150 to R154): micro-steps in order, completion, and the shared operation that issues a command (60_exceptions.md R171). -/

namespace Sys2Proof.Machine

/-- `nsteps(cur)` (R37, R150). -/
def nsteps : Instr → Nat
  | .nop => 1
  | .encrypt => 61
  | .addkey _ => 1
  | .addconst _ => 1
  | .subcells => 1
  | .shiftrows => 1
  | .mixcols => 1
  | .round _ => 1
  | .step _ => 5
  | .gfmul _ _ => 1

/-- Micro-step number k of a command (the table of R150). -/
def microStep (i : Instr) (k : Nat) (s : State) : State :=
  match i with
  | .nop => microNop s
  | .encrypt => microEncrypt k s
  | .addkey g => microAddkey g s
  | .addconst r => microAddconst r s
  | .subcells => microSubcells s
  | .shiftrows => microShiftrows s
  | .mixcols => microMixcols s
  | .round r => microRound r s
  | .step g => microStepGroup g k s
  | .gfmul a b => microGfmul a b s

/-- The command completes when `seq` has reached `nsteps` (R37, R154). -/
def State.completeIfLast (i : Instr) (s : State) : State :=
  if nsteps i ≤ s.seq then s.complete else s

/-- One turn of the engine agent: while BUSY = 1 the next micro-step of `cur`, and completion after the last one; an idle engine does nothing (R151, R153). -/
def State.engineStep (s : State) : State :=
  match s.busy, s.cur with
  | true, some i => ((microStep i s.seq s).nextSeq).completeIfLast i
  | _, _ => s

/-- n turns of the engine agent. -/
def State.advance : Nat → State → State
  | 0, s => s
  | n + 1, s => State.advance n s.engineStep

/-- The engine takes the micro-steps granted before the next host turn. -/
def State.runGrant (s : State) : State := State.advance s.grant { s with grant := 0 }

/-- A command delivered to the engine: BUSY_WRITE while busy (R174), OPERAND_RANGE for an operand outside its range (R77), else acceptance (R171);
then the engine takes the micro-steps granted in this turn. -/
def issue (i : Instr) (s : State) : Host.Outcome State Fault Refusal :=
  if s.busy then .next (s.raiseError .busyWrite).runGrant
  else if i.wf then .next (s.accept i).runGrant
  else .next (s.raiseError .operandRange).runGrant

end Sys2Proof.Machine
end

