-- ==== Sys2Proof/Machine/GfMultiplier.lean ====
section
/-! DEFINITION. The GFMUL command (spec 40_gf_multiplier.md). -/

namespace Sys2Proof.Machine

/-- GFMUL a, b: GFRES[3:0] <- gf_mul(a, b) (R92; its micro-step is `microGfmul`). -/
def execGfmul (a b : Nibble) (s : State) : Host.Outcome State Fault Refusal := issue (.gfmul a b) s

end Sys2Proof.Machine
end

