-- ==== Sys2Proof/Machine/KeyAddition.lean ====
section
/-! DEFINITION. The ADDKEY command (spec 43_key_addition.md). -/

namespace Sys2Proof.Machine

/-- ADDKEY g (R137; its micro-step is `microAddkey`). -/
def execAddkey (g : BitVec 4) (s : State) : Host.Outcome State Fault Refusal := issue (.addkey g) s

end Sys2Proof.Machine
end

