-- ==== Sys2Proof/Machine/RoundLoop.lean ====
section
/-! DEFINITION. The commands NOP, ROUND, STEP and ENCRYPT (spec 44_round_sequencer.md). -/

namespace Sys2Proof.Machine

/-- NOP (R155; its micro-step is `microNop`). -/
def execNop (s : State) : Host.Outcome State Fault Refusal := issue .nop s

/-- ROUND r (R156; its micro-step is `microRound`). -/
def execRound (r : BitVec 6) (s : State) : Host.Outcome State Fault Refusal := issue (.round r) s

/-- STEP s (R157; its five micro-steps are `microStepGroup`). -/
def execStep (g : BitVec 4) (s : State) : Host.Outcome State Fault Refusal := issue (.step g) s

/-- ENCRYPT (R158; its 61 micro-steps are `microEncrypt`). -/
def execEncrypt (s : State) : Host.Outcome State Fault Refusal := issue .encrypt s

end Sys2Proof.Machine
end

