-- ==== Sys2Proof/Machine/RoundSteps.lean ====
section
/-! DEFINITION. The commands for one sub-step of a round (spec 41_subcells_shiftrows_mixcols.md, 42_add_constants.md). -/

namespace Sys2Proof.Machine

/-- ADDCONST r (R123; its micro-step is `microAddconst`). -/
def execAddconst (r : BitVec 6) (s : State) : Host.Outcome State Fault Refusal := issue (.addconst r) s

/-- SUBCELLS (R102; its micro-step is `microSubcells`). -/
def execSubcells (s : State) : Host.Outcome State Fault Refusal := issue .subcells s

/-- SHIFTROWS (R106; its micro-step is `microShiftrows`). -/
def execShiftrows (s : State) : Host.Outcome State Fault Refusal := issue .shiftrows s

/-- MIXCOLS (R110; its micro-step is `microMixcols`). -/
def execMixcols (s : State) : Host.Outcome State Fault Refusal := issue .mixcols s

end Sys2Proof.Machine
end

