-- ==== Sys2Proof/Machine/Dispatch.lean ====
section
/-! DEFINITION. One arm per command, each a direct call of its meaning. -/

namespace Sys2Proof.Machine

/-- The effect of a command word that the host writes to CTRL and the decoder reads as i (R171). -/
def exec (i : Instr) (s : State) : Host.Outcome State Fault Refusal :=
  match i with
  | .nop => Sys2Proof.Machine.execNop s
  | .encrypt => Sys2Proof.Machine.execEncrypt s
  | .addkey g => Sys2Proof.Machine.execAddkey g s
  | .addconst r => Sys2Proof.Machine.execAddconst r s
  | .subcells => Sys2Proof.Machine.execSubcells s
  | .shiftrows => Sys2Proof.Machine.execShiftrows s
  | .mixcols => Sys2Proof.Machine.execMixcols s
  | .round r => Sys2Proof.Machine.execRound r s
  | .step g => Sys2Proof.Machine.execStep g s
  | .gfmul a b => Sys2Proof.Machine.execGfmul a b s

end Sys2Proof.Machine
end

