-- ==== Sys2Proof/Machine/Bus.lean ====
section
/-! DEFINITION. The register window (spec 10_state.md R30 to R36, 20_memory.md, 60_exceptions.md R171, R174): host reads and writes, and the turns of the outside world. -/

namespace Sys2Proof.Machine

/-- The registers of the window (R36). -/
inductive Reg where
  | ctrl | status | irqen | progress | stateHi | stateLo | keyHi | keyMid | keyLo | gfres
  /-- Offsets 0x28 to 0x3C (R35). -/
  | reserved
  deriving DecidableEq, Repr

/-- The register at an offset of the window (R36). -/
def regAt (off : Nat) : Reg :=
  match off with
  | 0x00 => .ctrl
  | 0x04 => .status
  | 0x08 => .irqen
  | 0x0C => .progress
  | 0x10 => .stateHi
  | 0x14 => .stateLo
  | 0x18 => .keyHi
  | 0x1C => .keyMid
  | 0x20 => .keyLo
  | 0x24 => .gfres
  | _ => .reserved

/-- The value a register holds, as a 32-bit word: CTRL and the reserved offsets read 0 (R30, R35). -/
def State.regWord (s : State) : Reg → Word
  | .ctrl => 0#32
  | .status => s.statusWord
  | .irqen => s.irqenWord
  | .progress => s.progressWord
  | .stateHi => stateHi s.sv
  | .stateLo => stateLo s.sv
  | .keyHi => keyHi s.kv
  | .keyMid => keyMid s.kv
  | .keyLo => keyLo s.kv
  | .gfres => s.gfresWord
  | .reserved => 0#32

/-- The bits of a register that are unspecified when read while BUSY = 1 (R22, R33, R34); KEY and the rest read as stored (R25). -/
def busyFreeBits : Reg → Option Word
  | .stateHi => some 0xFFFFFFFF#32
  | .stateLo => some 0xFFFFFFFF#32
  | .progress => some 0x00000F3F#32
  | .gfres => some 0x0000000F#32
  | .ctrl | .status | .irqen | .keyHi | .keyMid | .keyLo | .reserved => none

/-- A read: the register's value, or a free value while busy (R22, R25, R33, R34). It changes nothing of the engine (R56). -/
def State.readReg (r : Reg) (s : State) : State :=
  match s.busy, busyFreeBits r with
  | true, some fields => s.respondFree fields
  | _, _ => s.respond (s.regWord r)

/-- A write to STATE or KEY: stored when idle, rejected with BUSY_WRITE while busy (R174). -/
def State.writeData (f : State → State) (s : State) : State :=
  if s.busy then s.raiseError .busyWrite else f s

/-- A write to CTRL in the order of R171: busy, then decode, then acceptance by the command's own meaning. -/
def ctrlWrite (w : Word) (s : State) : Host.Outcome State Fault Refusal :=
  if s.busy then .next (s.raiseError .busyWrite).runGrant
  else
    match decode w with
    | .error c => .next (s.raiseError c).runGrant
    | .command i => exec i s

/-- A write of v to a register, then the engine's granted micro-steps (R30 to R35, R56, R174). -/
def busWrite (r : Reg) (v : Word) (s : State) : Host.Outcome State Fault Refusal :=
  match r with
  | .ctrl => ctrlWrite v s
  | .status => .next (s.writeStatus v).runGrant
  | .irqen => .next (s.writeIrqen v).runGrant
  | .progress => .next s.runGrant
  | .stateHi => .next (s.writeData fun t => t.setSv (withStateHi t.sv v)).runGrant
  | .stateLo => .next (s.writeData fun t => t.setSv (withStateLo t.sv v)).runGrant
  | .keyHi => .next (s.writeData fun t => t.setKv (withKeyHi t.kv v)).runGrant
  | .keyMid => .next (s.writeData fun t => t.setKv (withKeyMid t.kv v)).runGrant
  | .keyLo => .next (s.writeData fun t => t.setKv (withKeyLo t.kv v)).runGrant
  | .gfres => .next s.runGrant
  | .reserved => .next s.runGrant

/-- What an access at an address meets: a register, or the reason the model stops (R50, R53, R196; the order is log entry 8). -/
inductive Target where
  | reg (r : Reg)
  | outside
  | stop (r : Refusal)
  deriving DecidableEq, Repr

/-- Resolve an access: not during reset (R196), inside the window (R50), 4 bytes wide, at a multiple of 4 (R53). -/
def State.target (addr width : Nat) (s : State) : Target :=
  if s.inReset then .stop .accessDuringReset
  else if addr < s.cfg.ledBase ∨ s.cfg.ledBase + 64 ≤ addr then .outside
  else if width ≠ 4 then .stop .notWordAccess
  else if (addr - s.cfg.ledBase) % 4 ≠ 0 then .stop .misaligned
  else .reg (regAt (addr - s.cfg.ledBase))

/-- One event of the outside world, then the engine's granted micro-steps. -/
def performEvent (e : Event) (s : State) : Host.Outcome State Fault Refusal :=
  match e with
  | .quiet => .next s.runGrant
  | .assertReset => .next s.assertReset.runGrant
  | .releaseReset => .next s.releaseReset.runGrant
  | .read addr width =>
    match s.target addr width with
    | .reg r => .next (s.readReg r).runGrant
    | .outside => .fault .outsideWindow
    | .stop x => .refused x
  | .write addr width v =>
    match s.target addr width with
    | .reg r => busWrite r v s
    | .outside => .fault .outsideWindow
    | .stop x => .refused x

/-- The next turn: the first of `inputs` with its grant; with none left, the engine takes one micro-step if it is busy and waits otherwise (R153, R209; log entry 15). -/
def nextTurn (s : State) : Host.Outcome State Fault Refusal :=
  match s.inputs with
  | [] => .next s.engineStep
  | t :: rest => performEvent t.event { s with inputs := rest, grant := t.micro }

/-- The turn in which the host writes the word w to CTRL and the engine then runs it to its end (61 micro-steps are enough for every command, R150). -/
def commandTurn (s : State) (w : Word) : Turn :=
  { event := .write s.cfg.ledBase 4 w, micro := 61 }

end Sys2Proof.Machine
end

