-- ==== Sys2Proof/Machine/Step.lean ====
section
/-! DEFINITION. One step of the machine: one turn of the outside world with the engine's micro-steps that follow it, or one micro-step of the engine alone. -/

namespace Sys2Proof.Machine

/-- One step. A configuration that the spec rules out is refused (R26, D30). -/
def step (s : State) : Host.Outcome State Fault Refusal :=
  if configOk s.cfg then nextTurn s else .refused .badConfiguration

/-- s with a command word of `nbits` bits where the machine takes its next instruction: the next turn of the host is the write of that word to CTRL (R70; log entry 13). -/
def State.withFetchWord (s : State) (nbits w : Nat) : State :=
  { s with inputs := commandTurn s (BitVec.ofNat 32 (w % 2 ^ nbits)) :: s.inputs }

end Sys2Proof.Machine
end

