-- ==== Sys2Proof/Machine/Assembler.lean ====
section
/-! DEFINITION. The assembler of the command syntax (spec 30_encoding.md R80), on a line given as its characters. -/

namespace Sys2Proof.Machine

/-- A token's characters, none if there are none. -/
def flushToken (cur : List Char) : List (List Char) := if cur.isEmpty then [] else [cur]

/-- The tokens of a line: blanks separate them, a comma is a token of its own (log entry 22). -/
def tokensFrom (cur : List Char) : List Char → List (List Char)
  | [] => flushToken cur
  | c :: cs =>
    if c = ' ' ∨ c = '\t' then flushToken cur ++ tokensFrom [] cs
    else if c = ',' then flushToken cur ++ [','] :: tokensFrom [] cs
    else tokensFrom (cur ++ [c]) cs

/-- A digit's value below the base. -/
def digitVal (base : Nat) (c : Char) : Option Nat :=
  let n := c.toNat
  let v := if '0'.toNat ≤ n ∧ n ≤ '9'.toNat then n - '0'.toNat
    else if 'a'.toNat ≤ n ∧ n ≤ 'f'.toNat then n - 'a'.toNat + 10
    else if 'A'.toNat ≤ n ∧ n ≤ 'F'.toNat then n - 'A'.toNat + 10
    else base
  if v < base then some v else none

/-- The value of digits in a base, the most significant first. -/
def digitsVal (base : Nat) (acc : Nat) : List Char → Option Nat
  | [] => some acc
  | c :: cs =>
    match digitVal base c with
    | some d => digitsVal base (base * acc + d) cs
    | none => none

/-- An operand: decimal, or hexadecimal with a `0x` prefix (R80). -/
def operandVal : List Char → Option Nat
  | [] => none
  | '0' :: 'x' :: [] => none
  | '0' :: 'x' :: cs => digitsVal 16 0 cs
  | cs => digitsVal 10 0 cs

/-- Mnemonics are case-insensitive (R80). -/
def lowerCase (cs : List Char) : List Char :=
  cs.map fun c => if 'A'.toNat ≤ c.toNat ∧ c.toNat ≤ 'Z'.toNat then Char.ofNat (c.toNat + 32) else c

/-- The commands without operands. -/
def plainCommand (m : List Char) : Option Instr :=
  if m = ['n', 'o', 'p'] then some .nop
  else if m = ['e', 'n', 'c', 'r', 'y', 'p', 't'] then some .encrypt
  else if m = ['s', 'u', 'b', 'c', 'e', 'l', 'l', 's'] then some .subcells
  else if m = ['s', 'h', 'i', 'f', 't', 'r', 'o', 'w', 's'] then some .shiftrows
  else if m = ['m', 'i', 'x', 'c', 'o', 'l', 's'] then some .mixcols
  else none

/-- The commands with an index, which must be in its legal range (R73). -/
def indexCommand (m : List Char) (n : Nat) : Option Instr :=
  if m = ['a', 'd', 'd', 'k', 'e', 'y'] then (if n ≤ 12 then some (.addkey (BitVec.ofNat 4 n)) else none)
  else if m = ['a', 'd', 'd', 'c', 'o', 'n', 's', 't'] then (if n ≤ 47 then some (.addconst (BitVec.ofNat 6 n)) else none)
  else if m = ['r', 'o', 'u', 'n', 'd'] then (if n ≤ 47 then some (.round (BitVec.ofNat 6 n)) else none)
  else if m = ['s', 't', 'e', 'p'] then (if n ≤ 11 then some (.step (BitVec.ofNat 4 n)) else none)
  else none

/-- `gfmul a, b`. -/
def pairCommand (m : List Char) (a b : Nat) : Option Instr :=
  if m = ['g', 'f', 'm', 'u', 'l'] ∧ a ≤ 15 ∧ b ≤ 15 then some (.gfmul (BitVec.ofNat 4 a) (BitVec.ofNat 4 b)) else none

/-- The command of a line, if the assembler takes it (R80). -/
def parseLine (line : List Char) : Option Instr :=
  match tokensFrom [] line with
  | [m] => plainCommand (lowerCase m)
  | [m, x] => (operandVal x).bind (indexCommand (lowerCase m))
  | [m, x, [','], y] => (operandVal x).bind fun a => (operandVal y).bind (pairCommand (lowerCase m) a)
  | _ => none

/-- The word the assembler emits for a line (R80). -/
def assemble (line : List Char) : Option Word := (parseLine line).map encode

end Sys2Proof.Machine
end

