-- ==== Sys2Proof/Safety.lean ====
section
/-! DEFINITION. The invariant of the engine's control state: what holds of a machine that has run from reset. -/

namespace Sys2Proof.Machine

/-- The key additions among the first k micro-steps of ENCRYPT: micro-steps 0, 5, 10, ... (R150). -/
def keysBefore (k : Nat) : Nat := (k + 4) / 5

/-- The rounds among the first k micro-steps of ENCRYPT (R150). -/
def roundsBefore (k : Nat) : Nat := k - keysBefore k

/-- The control state is at the values of the table of R195. -/
structure State.AtResetTable (s : State) : Prop where
  busy : s.busy = false
  done : s.done = false
  err : s.err = false
  errCode : s.errCode = .none
  doneIe : s.doneIe = false
  errIe : s.errIe = false
  rcnt : s.rcnt = 0#6
  kcnt : s.kcnt = 0#4
  cur : s.cur = none
  seq : s.seq = 0

/-- The invariant that every step keeps. -/
structure State.Inv (s : State) : Prop where
  /-- An idle engine holds no command, a busy one holds one (R37, R154). -/
  busy : s.busy = s.cur.isSome
  /-- A command in flight is legal (R171), is not at its end (R37), has DONE = 0 (R31) and is not under reset (R196). -/
  running : ∀ i, s.cur = some i → s.done = false ∧ s.inReset = false ∧ i.wf = true ∧ s.seq < nsteps i
  /-- A running ENCRYPT has its position in PROGRESS (R152). -/
  progress : s.cur = some .encrypt → s.rcnt.toNat = roundsBefore s.seq ∧ s.kcnt.toNat = keysBefore s.seq
  /-- ERRCODE ≠ 0 exactly when ERR = 1 (R31). -/
  errCode : s.errCode ≠ .none ↔ s.err = true
  /-- RCNT is at most 48 (R33). -/
  rcnt : s.rcnt.toNat ≤ 48
  /-- KCNT is at most 13 (R33). -/
  kcnt : s.kcnt.toNat ≤ 13
  /-- While the reset input is asserted the control state is as the table of R195 says. -/
  underReset : s.inReset = true → s.AtResetTable

/-- A host that issues commands one after another and gives each its turns to complete (R159, R200). -/
def runCommands : List Instr → State → Host.Outcome State Fault Refusal
  | [], s => .next s
  | i :: is, s =>
    match exec i { s with grant := 61 } with
    | .next t => runCommands is t
    | .fault x => .fault x
    | .refused x => .refused x

end Sys2Proof.Machine
end

