-- ==== Sys2Proof/Certificates/Slice0/Obligations.lean ====
section
/-! DEFINITION. The statements about the machine. Every statement ranges over every configuration (S-box, matrix, round constants, key schedule, base address) unless it names one.
Turns (`inputs`) and granted micro-steps (`grant`) are the model's form of the interleaving that the spec leaves open (log entry 1). -/

open Sys2Proof Sys2Proof.Machine

/-! ### Encoding -/

/-- R74, R79, R80: the decoder reads every legal command back from its word, with every operand. -/
def Obligations.DecodeOfEncodeIsTheCommand : Prop :=
  ∀ i : Instr, i.wf = true → decode (encode i) = .command i

/-- R79, R80: a word that decodes to a command is that command's one word, and the command is legal. -/
def Obligations.EveryCommandHasExactlyOneWord : Prop :=
  ∀ (w : Word) (i : Instr), decode w = .command i → encode i = w ∧ i.wf = true

/-- R74: no word matches two rows of the opcode table: a word that fits a row's mask and match has that row's number of the OP column in its OP field,
and the ten rows have ten different numbers (written out here, apart from masks and matches), so two commands whose rows a word fits are of one row. -/
def Obligations.OpcodeRowsDoNotOverlap : Prop :=
  ∀ (i j : Instr) (w : Word), w &&& i.mask = i.pattern → w &&& j.mask = j.pattern →
    let opNumber : Instr → BitVec 4 := fun k =>
      match k with
      | .nop => 0x0#4 | .encrypt => 0x1#4 | .addkey _ => 0x2#4 | .addconst _ => 0x3#4 | .subcells => 0x4#4
      | .shiftrows => 0x5#4 | .mixcols => 0x6#4 | .round _ => 0x7#4 | .step _ => 0x8#4 | .gfmul _ _ => 0x9#4
    opField w = opNumber i ∧ opField w = opNumber j ∧ opNumber i = opNumber j

/-- R76: a defined opcode is RESERVED_FIELD exactly when a reserved bit or a bit of an operand field that its form does not use is 1,
which is when the word misses its row. -/
def Obligations.ReservedFieldExactlyWhenAnUnusedBitIsSet : Prop :=
  ∀ w : Word, (opField w).toNat < 10 →
    (decode w = .error .reservedField ↔
      rsv0Field w ≠ 0#4 ∨ rsv1Field w ≠ 0#2 ∨ rsv2Field w ≠ 0#4 ∨
        (opField w ≠ 0x3#4 ∧ opField w ≠ 0x7#4 ∧ riField w ≠ 0#6) ∨
        (opField w ≠ 0x2#4 ∧ opField w ≠ 0x8#4 ∧ giField w ≠ 0#4) ∨
        (opField w ≠ 0x9#4 ∧ (gaField w ≠ 0#4 ∨ gbField w ≠ 0#4))) ∧
    (decode w = .error .reservedField ↔ ∃ i, selectRow w = some i ∧ w &&& i.mask ≠ i.pattern)

/-- R77: a word that passes R76 is OPERAND_RANGE exactly for r > 47, g > 12 or s > 11; the other commands have no range check. -/
def Obligations.OperandRangeExactlyBeyondTheLegalIndices : Prop :=
  ∀ w : Word, (opField w).toNat < 10 → decode w ≠ .error .reservedField →
    (decode w = .error .operandRange ↔
      ((opField w = 0x3#4 ∨ opField w = 0x7#4) ∧ 47 < (riField w).toNat) ∨
        (opField w = 0x2#4 ∧ 12 < (giField w).toNat) ∨
        (opField w = 0x8#4 ∧ 11 < (giField w).toNat))

/-- R75, R79: opcodes 0xA to 0xF, and only they, are ILLEGAL_OPCODE, whatever the other bits. -/
def Obligations.ReservedOpcodesAreIllegalWhateverTheOtherBits : Prop :=
  ∀ w : Word, decode w = .error .illegalOpcode ↔ 0xA ≤ (opField w).toNat

/-- R83: the encoding examples, in both directions where the assembler emits the word. -/
def Obligations.WordsOfTheSpecDecodeAsItSays : Prop :=
  decode 0x00000001#32 = .command .encrypt ∧ encode .encrypt = 0x00000001#32 ∧
  decode 0x000C0002#32 = .command (.addkey 12#4) ∧ encode (.addkey 12#4) = 0x000C0002#32 ∧
  decode 0x000D0002#32 = .error .operandRange ∧
  decode 0x00002F03#32 = .command (.addconst 47#6) ∧ encode (.addconst 47#6) = 0x00002F03#32 ∧
  decode 0x00003007#32 = .error .operandRange ∧
  decode 0x000B0008#32 = .command (.step 11#4) ∧ encode (.step 11#4) = 0x000B0008#32 ∧
  decode 0x000C0008#32 = .error .operandRange ∧
  decode 0x07900009#32 = .command (.gfmul 0x9#4 0x7#4) ∧ encode (.gfmul 0x9#4 0x7#4) = 0x07900009#32 ∧
  decode 0x00000104#32 = .error .reservedField ∧
  decode 0x1000000A#32 = .error .illegalOpcode

/-- R80: an assembler never emits a word that the engine rejects when idle. How blanks, commas and digits are read is the model's choice (log entry 22). -/
def Obligations.AssemblerEmitsOnlyWordsTheDecoderTakes : Prop :=
  ∀ (line : List Char) (w : Word), assemble line = some w →
    ∃ i, parseLine line = some i ∧ decode w = .command i

/-! ### The step: command words -/

/-- R70, R171: when the host writes a word to CTRL while the engine is idle and out of reset and the word decodes to i, the step is exec of i
on the state with that turn taken and the turn's micro-steps granted. -/
def Obligations.StepRunsTheDecodedCommand : Prop :=
  ∀ (s : State) (w : Word) (i : Instr) (n : Nat) (rest : List Turn), configOk s.cfg = true → s.inReset = false → s.busy = false →
    s.inputs = ⟨.write s.cfg.ledBase 4 w, n⟩ :: rest → decode w = .command i →
    step s = exec i { s with inputs := rest, grant := n }

/-- R171: a CTRL write is rejected with BUSY_WRITE while busy, rejected with the decoder's code for a bad word, and accepted otherwise:
`cur` and `seq` are set, BUSY <- 1, DONE <- 0, and for ENCRYPT PROGRESS <- 0; ERR and ERRCODE keep their values and do not matter.
Then the engine takes the turn's micro-steps. -/
def Obligations.CtrlWriteIsAcceptedOrRejectedInOrder : Prop :=
  ∀ (s : State) (w : Word) (n : Nat) (rest : List Turn), configOk s.cfg = true → s.inReset = false →
    s.inputs = ⟨.write s.cfg.ledBase 4 w, n⟩ :: rest →
    step s = .next (State.runGrant
      (if s.busy then { s with inputs := rest, grant := n, err := true, errCode := if s.err then s.errCode else .busyWrite }
       else match decode w with
        | .error c => { s with inputs := rest, grant := n, err := true, errCode := if s.err then s.errCode else c }
        | .command i =>
          { s with
            inputs := rest, grant := n, cur := some i, seq := 0, busy := true, done := false,
            rcnt := if i = .encrypt then 0#6 else s.rcnt, kcnt := if i = .encrypt then 0#4 else s.kcnt }))

/-- R174: while busy a write to CTRL, STATE_HI, STATE_LO, KEY_HI, KEY_MID or KEY_LO is discarded with BUSY_WRITE and the running command goes on;
a write to STATUS, IRQEN, PROGRESS, GFRES or a reserved offset never records an error, busy or not; nor does a read of any register. -/
def Obligations.WritesWhileBusyAreRejectedAndOthersNever : Prop :=
  ∀ (s : State) (n : Nat) (rest : List Turn), configOk s.cfg = true → s.inReset = false →
    (∀ off v, off ∈ [0x00, 0x10, 0x14, 0x18, 0x1C, 0x20] → s.busy = true → s.inputs = ⟨.write (s.cfg.ledBase + off) 4 v, n⟩ :: rest →
      step s = .next (State.runGrant
        { s with inputs := rest, grant := n, err := true, errCode := if s.err then s.errCode else .busyWrite })) ∧
    (∀ off v, off ∈ [0x04, 0x08, 0x0C, 0x24, 0x28, 0x2C, 0x30, 0x34, 0x38, 0x3C] → s.inputs = ⟨.write (s.cfg.ledBase + off) 4 v, n⟩ :: rest →
      ∃ t, step s = .next t ∧ ((t.err = s.err ∧ t.errCode = s.errCode) ∨ (off = 0x04 ∧ t.err = false ∧ t.errCode = .none))) ∧
    (∀ off, off < 64 → off % 4 = 0 → s.inputs = ⟨.read (s.cfg.ledBase + off) 4, n⟩ :: rest →
      ∃ t, step s = .next t ∧ t.err = s.err ∧ t.errCode = s.errCode)

/-! ### The step: registers of the window -/

/-- R31, R179: a STATUS write clears DONE by bit 1 and ERR with ERRCODE by bit 2, ignores every other bit, and is taken while busy too. -/
def Obligations.StatusWriteClearsDoneAndTheError : Prop :=
  ∀ (s : State) (v : Word) (n : Nat) (rest : List Turn), configOk s.cfg = true → s.inReset = false →
    s.inputs = ⟨.write (s.cfg.ledBase + 0x04) 4 v, n⟩ :: rest →
    step s = .next (State.runGrant
      { s with
        inputs := rest, grant := n,
        done := if v.getLsbD 1 then false else s.done,
        err := if v.getLsbD 2 then false else s.err,
        errCode := if v.getLsbD 2 then .none else s.errCode })

/-- R32: an IRQEN write stores bits 1:0, busy or not. -/
def Obligations.IrqenWriteStoresTheTwoEnables : Prop :=
  ∀ (s : State) (v : Word) (n : Nat) (rest : List Turn), configOk s.cfg = true → s.inReset = false →
    s.inputs = ⟨.write (s.cfg.ledBase + 0x08) 4 v, n⟩ :: rest →
    step s = .next (State.runGrant { s with inputs := rest, grant := n, doneIe := v.getLsbD 0, errIe := v.getLsbD 1 })

/-- R33, R34, R35: a write to PROGRESS, GFRES or a reserved offset changes nothing. -/
def Obligations.WritesToReadOnlyAndReservedOffsetsAreIgnored : Prop :=
  ∀ (s : State) (off : Nat) (v : Word) (n : Nat) (rest : List Turn), configOk s.cfg = true → s.inReset = false →
    off ∈ [0x0C, 0x24, 0x28, 0x2C, 0x30, 0x34, 0x38, 0x3C] → s.inputs = ⟨.write (s.cfg.ledBase + off) 4 v, n⟩ :: rest →
    step s = .next (State.runGrant { s with inputs := rest, grant := n })

/-- R20, R23, R200: an idle engine stores a write of a data register: STATE_HI = SV[63:32], STATE_LO = SV[31:0], KEY_HI = KV[79:48],
KEY_MID = KV[47:16], KEY_LO[15:0] = KV[15:0] with the value's bits [31:16] ignored; the other bits of SV or KV and all else stay. -/
def Obligations.IdleDataWritesStoreTheirField : Prop :=
  ∀ (s : State) (v : Word) (rest : List Turn), configOk s.cfg = true → s.inReset = false → s.busy = false →
    (s.inputs = ⟨.write (s.cfg.ledBase + 0x10) 4 v, 0⟩ :: rest →
      step s = .next { s with inputs := rest, grant := 0, sv := v ++ s.sv.extractLsb' 0 32 }) ∧
    (s.inputs = ⟨.write (s.cfg.ledBase + 0x14) 4 v, 0⟩ :: rest →
      step s = .next { s with inputs := rest, grant := 0, sv := s.sv.extractLsb' 32 32 ++ v }) ∧
    (s.inputs = ⟨.write (s.cfg.ledBase + 0x18) 4 v, 0⟩ :: rest →
      step s = .next { s with inputs := rest, grant := 0, kv := v ++ s.kv.extractLsb' 0 48 }) ∧
    (s.inputs = ⟨.write (s.cfg.ledBase + 0x1C) 4 v, 0⟩ :: rest →
      step s = .next { s with inputs := rest, grant := 0, kv := s.kv.extractLsb' 48 32 ++ v ++ s.kv.extractLsb' 0 16 }) ∧
    (s.inputs = ⟨.write (s.cfg.ledBase + 0x20) 4 v, 0⟩ :: rest →
      step s = .next { s with inputs := rest, grant := 0, kv := s.kv.extractLsb' 16 64 ++ v.extractLsb' 0 16 })

/-- R20 to R35: what an idle engine answers to a read of each offset but STATUS, the reserved bits reading 0. -/
def Obligations.IdleReadsReturnTheStoredValues : Prop :=
  ∀ (s : State) (off n : Nat) (rest : List Turn), configOk s.cfg = true → s.inReset = false → s.busy = false →
    off ∈ [0x00, 0x08, 0x0C, 0x10, 0x14, 0x18, 0x1C, 0x20, 0x24, 0x28, 0x2C, 0x30, 0x34, 0x38, 0x3C] →
    s.inputs = ⟨.read (s.cfg.ledBase + off) 4, n⟩ :: rest →
    step s = .next
      { s with
        inputs := rest, grant := 0,
        responses :=
          (if off = 0x08 then 0#30 ++ BitVec.ofBool s.errIe ++ BitVec.ofBool s.doneIe
           else if off = 0x0C then 0#20 ++ s.kcnt ++ 0#2 ++ s.rcnt
           else if off = 0x10 then s.sv.extractLsb' 32 32
           else if off = 0x14 then s.sv.extractLsb' 0 32
           else if off = 0x18 then s.kv.extractLsb' 48 32
           else if off = 0x1C then s.kv.extractLsb' 16 32
           else if off = 0x20 then 0#16 ++ s.kv.extractLsb' 0 16
           else if off = 0x24 then 0#28 ++ s.gfres
           else 0#32) :: s.responses }

/-- R22, R25, R30, R32 to R35: while busy a read of STATE_HI or STATE_LO returns a free word, of PROGRESS or GFRES a free value in its fields,
of KEY or IRQEN the stored value, of CTRL or a reserved offset 0; the engine goes on. The reserved bits of PROGRESS and GFRES reading 0 here is the model's inference (log entry 5). -/
def Obligations.BusyReadsReturnFreeOrStoredValues : Prop :=
  ∀ (s : State) (off n : Nat) (rest : List Turn), configOk s.cfg = true → s.inReset = false → s.busy = true →
    s.inputs = ⟨.read (s.cfg.ledBase + off) 4, n⟩ :: rest →
    (off ∈ [0x10, 0x14] → step s = .next (State.runGrant
      { s with inputs := rest, grant := n, responses := Config.freeWord s.draws :: s.responses, draws := s.draws + 1 })) ∧
    (off = 0x0C → step s = .next (State.runGrant
      { s with inputs := rest, grant := n, responses := (Config.freeWord s.draws &&& 0x00000F3F#32) :: s.responses, draws := s.draws + 1 })) ∧
    (off = 0x24 → step s = .next (State.runGrant
      { s with inputs := rest, grant := n, responses := (Config.freeWord s.draws &&& 0x0000000F#32) :: s.responses, draws := s.draws + 1 })) ∧
    (off ∈ [0x18, 0x1C, 0x20] → step s = .next (State.runGrant
      { s with
        inputs := rest, grant := n,
        responses :=
          (if off = 0x18 then s.kv.extractLsb' 48 32 else if off = 0x1C then s.kv.extractLsb' 16 32 else 0#16 ++ s.kv.extractLsb' 0 16)
            :: s.responses })) ∧
    (off = 0x08 → step s = .next (State.runGrant
      { s with inputs := rest, grant := n, responses := (0#30 ++ BitVec.ofBool s.errIe ++ BitVec.ofBool s.doneIe) :: s.responses })) ∧
    (off ∈ [0x00, 0x28, 0x2C, 0x30, 0x34, 0x38, 0x3C] → step s = .next (State.runGrant
      { s with inputs := rest, grant := n, responses := 0#32 :: s.responses }))

/-- R56: a read of any offset returns one value and, the engine taking no micro-step, changes nothing else of the state; an idle engine returns the same value again. -/
def Obligations.ReadsHaveNoSideEffects : Prop :=
  ∀ (s : State) (off : Nat) (rest : List Turn), configOk s.cfg = true → s.inReset = false → off < 64 → off % 4 = 0 →
    s.inputs = ⟨.read (s.cfg.ledBase + off) 4, 0⟩ :: rest →
    ∃ v d, step s = .next { s with inputs := rest, grant := 0, responses := v :: s.responses, draws := d } ∧
      (s.busy = false → d = s.draws ∧ ∀ rest', rest = ⟨.read (s.cfg.ledBase + off) 4, 0⟩ :: rest' →
        step { s with inputs := rest, grant := 0, responses := v :: s.responses } =
          .next { s with inputs := rest', grant := 0, responses := v :: v :: s.responses })

/-- R31, R40: a read of STATUS, busy or not, returns BUSY, DONE, ERR, ERRCODE and the interrupt level (DONE & DONE_IE) | (ERR & ERR_IE) in their bits, the others 0. -/
def Obligations.StatusReadShowsTheFlagsAndTheInterruptLevel : Prop :=
  ∀ (s : State) (n : Nat) (rest : List Turn), configOk s.cfg = true → s.inReset = false →
    s.inputs = ⟨.read (s.cfg.ledBase + 0x04) 4, n⟩ :: rest →
    ∃ t v, step s = .next t ∧ t.responses = v :: s.responses ∧
      v.getLsbD 0 = s.busy ∧ v.getLsbD 1 = s.done ∧ v.getLsbD 2 = s.err ∧ v.getLsbD 3 = false ∧
      (v.extractLsb' 4 4).toNat =
        (match s.errCode with | .none => 0 | .illegalOpcode => 1 | .reservedField => 2 | .operandRange => 3 | .busyWrite => 4) ∧
      v.getLsbD 8 = s.irq ∧ s.irq = ((s.done && s.doneIe) || (s.err && s.errIe)) ∧ v.extractLsb' 9 23 = 0#23

/-- R53: inside the window an access of another width, or at an offset that is not a multiple of 4, is refused, read or write. -/
def Obligations.NarrowOrMisalignedAccessesAreRefused : Prop :=
  ∀ (s : State) (off width n : Nat) (v : Word) (rest : List Turn), configOk s.cfg = true → s.inReset = false → off < 64 →
    s.inputs = ⟨.read (s.cfg.ledBase + off) width, n⟩ :: rest ∨ s.inputs = ⟨.write (s.cfg.ledBase + off) width v, n⟩ :: rest →
    (width ≠ 4 → step s = .refused .notWordAccess) ∧
    (width = 4 → off % 4 ≠ 0 → step s = .refused .misaligned) ∧
    (width = 4 → off % 4 = 0 → ∃ t, step s = .next t)

/-- R50 and log entry 8 (the model's choice): an access outside the 64 bytes of the window faults. -/
def Obligations.AccessOutsideTheWindowFaults : Prop :=
  ∀ (s : State) (a width n : Nat) (v : Word) (rest : List Turn), configOk s.cfg = true → s.inReset = false →
    (a < s.cfg.ledBase ∨ s.cfg.ledBase + 64 ≤ a) →
    s.inputs = ⟨.read a width, n⟩ :: rest ∨ s.inputs = ⟨.write a width v, n⟩ :: rest → step s = .fault .outsideWindow

/-! ### Reset and configuration -/

/-- R195, R196: the reset input gives the control state of R195's table, abandons a running command without DONE, leaves each data register a free value,
and lets no micro-step happen; its release changes nothing else. While the input is high, and in the step that releases it, every step that goes on from a state
of the invariant leaves the control state at the table's values. One free draw per rise of the input, and that a rise of a high input or a fall of a low one
does nothing, are the model's choices (log entries 4, 18). -/
def Obligations.ResetInputGivesTheResetState : Prop :=
  ∀ (s : State) (n : Nat) (rest : List Turn), configOk s.cfg = true →
    (s.inReset = false → s.inputs = ⟨.assertReset, n⟩ :: rest →
      step s = .next
        { cfg := s.cfg, sv := Config.freeBlock s.draws, kv := Config.freeKey s.draws, gfres := Config.freeNibble s.draws,
          busy := false, done := false, err := false, errCode := .none, doneIe := false, errIe := false,
          rcnt := 0#6, kcnt := 0#4, cur := none, seq := 0, inReset := true,
          inputs := rest, grant := 0, responses := s.responses, draws := s.draws + 1 }) ∧
    (s.inReset = true → s.busy = false → s.inputs = ⟨.releaseReset, n⟩ :: rest →
      step s = .next { s with inReset := false, inputs := rest, grant := 0 }) ∧
    (s.inReset = true → s.inputs = ⟨.assertReset, n⟩ :: rest → step s = .next (State.runGrant { s with inputs := rest, grant := n })) ∧
    (s.inReset = false → s.inputs = ⟨.releaseReset, n⟩ :: rest → step s = .next (State.runGrant { s with inputs := rest, grant := n })) ∧
    (s.inReset = true → s.Inv → ∀ t, step s = .next t →
      t.busy = false ∧ t.done = false ∧ t.err = false ∧ t.errCode = .none ∧ t.doneIe = false ∧ t.errIe = false ∧
      t.rcnt = 0#6 ∧ t.kcnt = 0#4 ∧ t.cur = none ∧ t.seq = 0 ∧ t.irq = false)

/-- R196: a host access during reset is refused, whatever its address and width. -/
def Obligations.AccessDuringResetIsRefused : Prop :=
  ∀ (s : State) (a width n : Nat) (v : Word) (rest : List Turn), configOk s.cfg = true → s.inReset = true →
    s.inputs = ⟨.read a width, n⟩ :: rest ∨ s.inputs = ⟨.write a width v, n⟩ :: rest → step s = .refused .accessDuringReset

/-- R195, R197, R181: the state after reset is idle, with no error, DONE = 0, the interrupts masked, PROGRESS 0, and irq = 0. -/
def Obligations.ResetStateHasTheControlValuesOfTheTable : Prop :=
  State.reset.busy = false ∧ State.reset.done = false ∧ State.reset.err = false ∧ State.reset.errCode = .none ∧
  State.reset.doneIe = false ∧ State.reset.errIe = false ∧ State.reset.rcnt = 0#6 ∧ State.reset.kcnt = 0#4 ∧
  State.reset.cur = none ∧ State.reset.seq = 0 ∧ State.reset.irq = false ∧ State.reset.inReset = false ∧
  State.reset.statusWord = 0#32 ∧ configOk State.reset.cfg = true

/-- R197: after reset, with whatever the data registers hold and under every configuration, the engine accepts any command word at once;
given the turns it needs, it completes it. -/
def Obligations.EngineAcceptsACommandRightAfterReset : Prop :=
  ∀ (cfg : Config) (sv : Block) (kv : Key) (g : Nibble) (w : Word) (i : Instr), configOk cfg = true → decode w = .command i →
    (∃ t, step { State.atReset cfg sv kv g with inputs := [⟨.write cfg.ledBase 4 w, 0⟩] } = .next t ∧
      t.busy = true ∧ t.cur = some i ∧ t.done = false ∧ t.err = false) ∧
    (∃ t, step ((State.atReset cfg sv kv g).withFetchWord 32 w.toNat) = .next t ∧
      t.busy = false ∧ t.cur = none ∧ t.done = true ∧ t.err = false ∧ t.seq = nsteps i)

/-- R26, R8, R50, D30 and log entry 11: a step is refused for its configuration exactly when SBOX_TABLE is not a bijection of 16 entries, RC_TABLE has not
48 entries of at most 0x3F, MC_MATRIX is not 4×4, LED_BASE is not a multiple of 64, or LAT(op) is not ten numbers of at least 1. -/
def Obligations.BadConfigurationsAreRefused : Prop :=
  ∀ s : State, step s ≠ .refused .badConfiguration ↔
    (s.cfg.sbox.length = 16 ∧ Function.Bijective (sboxAt s.cfg.sbox)) ∧
    (s.cfg.rc.length = 48 ∧ ∀ x ∈ s.cfg.rc, x ≤ 0x3F) ∧
    (s.cfg.mc.length = 4 ∧ ∀ row ∈ s.cfg.mc, row.length = 4) ∧
    s.cfg.ledBase % 64 = 0 ∧ s.cfg.lat.length = 10 ∧ ∀ n ∈ s.cfg.lat, 1 ≤ n

/-! ### What each command does: with its turns granted, an idle engine runs it to its end -/

/-- R155: NOP changes nothing but DONE and the sequencer's position. -/
def Obligations.NopCompletesDoingNothing : Prop :=
  ∀ s : State, s.busy = false → 1 ≤ s.grant →
    exec .nop s = .next { s with busy := false, done := true, cur := none, seq := 1, grant := 0 }

/-- R92: GFMUL puts gf_mul(a, b) in GFRES[3:0] and changes nothing else; R90: gf_mul is the carry-less product of a and b, reduced by x^4 = x + 1:
the XOR over the set bits k of b of a times x^k. -/
def Obligations.GfmulPutsTheProductInGfres : Prop :=
  ∀ (s : State) (a b : Nibble), s.busy = false → 1 ≤ s.grant →
    exec (.gfmul a b) s = .next { s with gfres := gfMul a b, busy := false, done := true, cur := none, seq := 1, grant := 0 } ∧
    gfMul a b =
      (if b.getLsbD 0 then a else 0#4) ^^^ (if b.getLsbD 1 then xtime a else 0#4) ^^^
        (if b.getLsbD 2 then xtime (xtime a) else 0#4) ^^^ (if b.getLsbD 3 then xtime (xtime (xtime a)) else 0#4) ∧
    xtime a = (if a.getLsbD 3 then (a <<< 1) ^^^ 0x3#4 else a <<< 1)

/-- R131, R133: ADDKEY g, for g in 0..12 and every KEY_SCHEDULE, XORs the subkey of boundary g into STATE cell by cell and changes nothing else. -/
def Obligations.AddkeyXorsTheSubkeyIntoState : Prop :=
  ∀ (s : State) (g : BitVec 4), s.busy = false → 1 ≤ s.grant → g.toNat ≤ 12 →
    ∃ x : Block,
      exec (.addkey g) s = .next { s with sv := x, busy := false, done := true, cur := none, seq := 1, grant := 0 } ∧
      ∀ r c : Fin 4, cell x r c = cell s.sv r c ^^^
        (match s.cfg.keySchedule with
         | .ledCyclic => keyNibble s.kv ((16 * g.toNat + (4 * r.val + c.val)) % 20)
         | .doc46 => (if g.toNat % 2 = 0 then keyNibble s.kv (4 * r.val + c.val) else 0#4) ^^^ keyNibble s.kv (4 * r.val + c.val + 4)
         | .alternate => if g.toNat % 2 = 0 then keyNibble s.kv (4 * r.val + c.val) else keyNibble s.kv (4 * r.val + c.val + 4))

/-- R120: ADDCONST r, for r in 0..47, XORs 1, 2, 3 and the two halves of RC_TABLE[r] into the seven cells of R120 and changes no other cell and nothing else. -/
def Obligations.AddconstXorsTheRoundConstantIntoSevenCells : Prop :=
  ∀ (s : State) (r : BitVec 6), s.busy = false → 1 ≤ s.grant → r.toNat ≤ 47 →
    ∃ x : Block,
      exec (.addconst r) s = .next { s with sv := x, busy := false, done := true, cur := none, seq := 1, grant := 0 } ∧
      let hi : Nibble := ((rcAt s.cfg.rc r.toNat).extractLsb' 3 3).setWidth 4
      let lo : Nibble := ((rcAt s.cfg.rc r.toNat).extractLsb' 0 3).setWidth 4
      cell x 1 0 = cell s.sv 1 0 ^^^ 0x1#4 ∧ cell x 2 0 = cell s.sv 2 0 ^^^ 0x2#4 ∧ cell x 3 0 = cell s.sv 3 0 ^^^ 0x3#4 ∧
      cell x 0 1 = cell s.sv 0 1 ^^^ hi ∧ cell x 1 1 = cell s.sv 1 1 ^^^ lo ∧
      cell x 2 1 = cell s.sv 2 1 ^^^ hi ∧ cell x 3 1 = cell s.sv 3 1 ^^^ lo ∧
      cell x 0 0 = cell s.sv 0 0 ∧ ∀ q, cell x q 2 = cell s.sv q 2 ∧ cell x q 3 = cell s.sv q 3

/-- R100: SUBCELLS replaces every cell by its image under SBOX_TABLE, no cell reading another, and changes nothing else. -/
def Obligations.SubcellsSubstitutesEveryCell : Prop :=
  ∀ s : State, s.busy = false → 1 ≤ s.grant →
    ∃ x : Block,
      exec .subcells s = .next { s with sv := x, busy := false, done := true, cur := none, seq := 1, grant := 0 } ∧
      ∀ r c : Fin 4, cell x r c = s.cfg.sbox.getD (cell s.sv r c).toNat 0#4

/-- R104: SHIFTROWS rotates row r left by r cells, every cell read from the state before, and changes nothing else. -/
def Obligations.ShiftrowsRotatesRowRLeftByR : Prop :=
  ∀ s : State, s.busy = false → 1 ≤ s.grant →
    ∃ x : Block,
      exec .shiftrows s = .next { s with sv := x, busy := false, done := true, cur := none, seq := 1, grant := 0 } ∧
      ∀ r c : Fin 4, ∀ h : (c.val + r.val) % 4 < 4, cell x r c = cell s.sv r ⟨(c.val + r.val) % 4, h⟩

/-- R108: MIXCOLS multiplies every column by MC_MATRIX over GF(2^4), every cell read from the state before, and changes nothing else. -/
def Obligations.MixcolsMultipliesEveryColumnByTheMatrix : Prop :=
  ∀ s : State, s.busy = false → 1 ≤ s.grant →
    ∃ x : Block,
      exec .mixcols s = .next { s with sv := x, busy := false, done := true, cur := none, seq := 1, grant := 0 } ∧
      ∀ j c : Fin 4, cell x j c =
        gfMul (mcAt s.cfg.mc j 0) (cell s.sv 0 c) ^^^ gfMul (mcAt s.cfg.mc j 1) (cell s.sv 1 c) ^^^
        gfMul (mcAt s.cfg.mc j 2) (cell s.sv 2 c) ^^^ gfMul (mcAt s.cfg.mc j 3) (cell s.sv 3 c)

/-- R145, R156: ROUND r, for r in 0..47, applies AddConstants(r), SubCells, ShiftRows and MixColumnsSerial in this order to STATE and changes nothing else. -/
def Obligations.RoundAppliesTheFourSubstepsInOrder : Prop :=
  ∀ (s : State) (r : BitVec 6), s.busy = false → 1 ≤ s.grant → r.toNat ≤ 47 →
    exec (.round r) s = .next
      { s with
        sv := mixColumns s.cfg.mc (shiftRows (subCells s.cfg.sbox (addConstants s.cfg.rc r.toNat s.sv))),
        busy := false, done := true, cur := none, seq := 1, grant := 0 }

/-- R157: STEP s, for s in 0..11, given its five micro-steps runs rounds 4s to 4s+3 and the key addition at boundary s+1, and changes nothing else. -/
def Obligations.StepRunsOneRoundGroup : Prop :=
  ∀ (s : State) (g : BitVec 4), s.busy = false → 5 ≤ s.grant → g.toNat ≤ 11 →
    exec (.step g) s = .next
      { s with
        sv := addRoundKey s.cfg.keySchedule s.kv (g.toNat + 1)
          (cipherRound s.cfg (4 * g.toNat + 3) (cipherRound s.cfg (4 * g.toNat + 2)
            (cipherRound s.cfg (4 * g.toNat + 1) (cipherRound s.cfg (4 * g.toNat) s.sv)))),
        busy := false, done := true, cur := none, seq := 5, grant := 0 }

/-- R158, R147, R152: ENCRYPT, given its 61 micro-steps, leaves Encrypt(KV, SV) in STATE, 48 in RCNT and 13 in KCNT, and changes nothing else. -/
def Obligations.EncryptLeavesTheCiphertextInState : Prop :=
  ∀ s : State, s.busy = false → 61 ≤ s.grant →
    exec .encrypt s = .next
      { s with
        sv := cipherEncrypt s.cfg s.kv s.sv, rcnt := 48#6, kcnt := 13#4,
        busy := false, done := true, cur := none, seq := 61, grant := 0 }

/-- R174, R172: any command issued while busy is rejected with BUSY_WRITE, keeping the first error's code; the running command goes on. -/
def Obligations.CommandsWhileBusyAreRejected : Prop :=
  ∀ (i : Instr) (s : State), s.busy = true →
    exec i s = .next (State.runGrant { s with err := true, errCode := if s.err then s.errCode else .busyWrite })

/-- R77, R172: a command with an operand outside its legal range is rejected with OPERAND_RANGE and has no other effect.
That exec checks operands itself is the model's choice (log entry 10); the decoder never hands it such a command. -/
def Obligations.CommandsWithIllegalOperandsAreRejected : Prop :=
  ∀ (i : Instr) (s : State), s.busy = false →
    (∃ g, i = .addkey g ∧ 12 < g.toNat) ∨ (∃ r, (i = .addconst r ∨ i = .round r) ∧ 47 < r.toNat) ∨ (∃ g, i = .step g ∧ 11 < g.toNat) →
    exec i s = .next { s with grant := 0, err := true, errCode := if s.err then s.errCode else .operandRange }

/-! ### The sequencer -/

/-- R150, R151, R154: with no host turn, a step while busy is micro-step `seq` of the running command: what the table of R150 says happens to STATE, GFRES and nothing else of the data,
`seq` rises by 1, and the command completes exactly after its last micro-step. -/
def Obligations.MicroStepsFollowTheTable : Prop :=
  ∀ (s : State) (i : Instr), configOk s.cfg = true → s.inputs = [] → s.busy = true → s.cur = some i → s.done = false →
    ∃ t, step s = .next t ∧ t.seq = s.seq + 1 ∧ t.kv = s.kv ∧
      (let n := match i with | .encrypt => 61 | .step _ => 5 | _ => 1
       (s.seq + 1 < n → t.busy = true ∧ t.cur = some i ∧ t.done = false) ∧
       (n ≤ s.seq + 1 → t.busy = false ∧ t.cur = none ∧ t.done = true)) ∧
      t.gfres = (match i with | .gfmul a b => gfMul a b | _ => s.gfres) ∧
      t.sv =
        (match i with
         | .nop => s.sv
         | .gfmul _ _ => s.sv
         | .addkey g => addRoundKey s.cfg.keySchedule s.kv g.toNat s.sv
         | .addconst r => addConstants s.cfg.rc r.toNat s.sv
         | .subcells => subCells s.cfg.sbox s.sv
         | .shiftrows => shiftRows s.sv
         | .mixcols => mixColumns s.cfg.mc s.sv
         | .round r => cipherRound s.cfg r.toNat s.sv
         | .step g =>
           if s.seq < 4 then cipherRound s.cfg (4 * g.toNat + s.seq) s.sv
           else addRoundKey s.cfg.keySchedule s.kv (g.toNat + 1) s.sv
         | .encrypt =>
           if s.seq = 0 then addRoundKey s.cfg.keySchedule s.kv 0 s.sv
           else if (s.seq - 1) % 5 < 4 then cipherRound s.cfg (4 * ((s.seq - 1) / 5) + (s.seq - 1) % 5) s.sv
           else addRoundKey s.cfg.keySchedule s.kv ((s.seq - 1) / 5 + 1) s.sv)

/-- R152: in a state that the invariant admits, each micro-step of ENCRYPT counts in PROGRESS, KCNT for a key addition and RCNT for a round, so RCNT + KCNT = `seq`,
and RCNT = 48, KCNT = 13 at completion. -/
def Obligations.EncryptCountsItsRoundsAndKeyAdditions : Prop :=
  ∀ s : State, s.Inv → configOk s.cfg = true → s.inputs = [] → s.cur = some .encrypt →
    ∃ t, step s = .next t ∧
      (if s.seq % 5 = 0 then t.kcnt.toNat = s.kcnt.toNat + 1 ∧ t.rcnt = s.rcnt else t.rcnt.toNat = s.rcnt.toNat + 1 ∧ t.kcnt = s.kcnt) ∧
      t.rcnt.toNat + t.kcnt.toNat = t.seq ∧ (t.done = true → t.rcnt = 48#6 ∧ t.kcnt = 13#4)

/-- R153, R209: left to itself, a busy engine completes after exactly the micro-steps that its command still has, and is busy until then. -/
def Obligations.BusyEngineCompletesAfterItsRemainingMicroSteps : Prop :=
  ∀ (s : State) (i : Instr), s.Inv → configOk s.cfg = true → s.inputs = [] → s.cur = some i →
    (∃ t, Host.Core.run Sys2Proof.core (nsteps i - s.seq) s = .next t ∧ State.busy t = false ∧ State.done t = true ∧ State.cur t = none) ∧
    ∀ k, k < nsteps i - s.seq → ∃ u, Host.Core.run Sys2Proof.core k s = .next u ∧ State.busy u = true ∧ State.cur u = some i

/-- R151, R172, R174: whatever the host does in a turn that begins while the engine is busy, a reset apart, the data and the sequencer end the turn as the engine's own micro-steps leave them. -/
def Obligations.HostCannotDisturbARunningCommand : Prop :=
  ∀ (s t : State) (e : Event) (n : Nat) (rest : List Turn), s.busy = true → s.inputs = ⟨e, n⟩ :: rest → e ≠ .assertReset → step s = .next t →
    t.sv = (s.advance n).sv ∧ t.kv = (s.advance n).kv ∧ t.gfres = (s.advance n).gfres ∧ t.rcnt = (s.advance n).rcnt ∧
    t.kcnt = (s.advance n).kcnt ∧ t.busy = (s.advance n).busy ∧ t.cur = (s.advance n).cur ∧ t.seq = (s.advance n).seq

/-- R57, R151 and log entry 1: n + m micro-steps after a host event are n, and then m more in a turn without a host access. -/
def Obligations.GrantsSplitIntoTurnsOfTheEngineAlone : Prop :=
  ∀ (s t : State) (e : Event) (n m : Nat) (rest : List Turn),
    step { s with inputs := ⟨e, n + m⟩ :: rest } = .next t ↔
      ∃ u, step { s with inputs := ⟨e, n⟩ :: ⟨.quiet, m⟩ :: rest } = .next u ∧ step u = .next t

/-- R177: a rejection and a turn of the engine touch disjoint fields, so their order does not matter. -/
def Obligations.RejectionAndMicroStepCommute : Prop :=
  ∀ (s : State) (c : ErrCode), (s.raiseError c).engineStep = s.engineStep.raiseError c

/-! ### Rules of the whole machine -/

/-- R31, R33, R37, R152, R195: every step keeps the invariant of the control state, the reset table while the reset input is high among it. -/
def Obligations.EveryStepKeepsTheInvariant : Prop :=
  ∀ s t : State, s.Inv → step s = .next t → t.Inv

/-- The state after reset meets the invariant. -/
def Obligations.ResetStateMeetsTheInvariant : Prop := State.reset.Inv

/-- R25: the engine never writes KEY: only a host write to a KEY register of an idle engine, or a reset, changes it. -/
def Obligations.OnlyTheHostWritesKey : Prop :=
  ∀ s t : State, step s = .next t → t.kv ≠ s.kv →
    (s.inReset = false ∧ ∃ n rest, s.inputs = ⟨.assertReset, n⟩ :: rest) ∨
    (s.busy = false ∧ ∃ off v n rest, off ∈ [0x18, 0x1C, 0x20] ∧ s.inputs = ⟨.write (s.cfg.ledBase + off) 4 v, n⟩ :: rest)

/-- R152: only ENCRYPT changes PROGRESS, running or just accepted; a reset clears it. -/
def Obligations.OnlyEncryptChangesProgress : Prop :=
  ∀ s t : State, step s = .next t → (t.rcnt ≠ s.rcnt ∨ t.kcnt ≠ s.kcnt) →
    s.cur = some .encrypt ∨
    (∃ n rest, s.inputs = ⟨.assertReset, n⟩ :: rest) ∨
    (s.busy = false ∧ ∃ n rest, s.inputs = ⟨.write s.cfg.ledBase 4 0x00000001#32, n⟩ :: rest)

/-- R34, R92: only GFMUL changes GFRES, and to its product; a reset leaves it unspecified. -/
def Obligations.OnlyGfmulChangesGfres : Prop :=
  ∀ s t : State, step s = .next t → t.gfres ≠ s.gfres →
    (∃ n rest, s.inputs = ⟨.assertReset, n⟩ :: rest) ∨
    ∃ a b, t.gfres = gfMul a b ∧
      (s.cur = some (.gfmul a b) ∨
       (s.busy = false ∧ ∃ w n rest, s.inputs = ⟨.write s.cfg.ledBase 4 w, n⟩ :: rest ∧ decode w = .command (.gfmul a b)))

/-- R26: the configuration never changes, not even by a reset. -/
def Obligations.ConfigurationNeverChanges : Prop :=
  ∀ s t : State, step s = .next t → t.cfg = s.cfg

/-! ### The cipher -/

/-- R91: the laws of gf_mul. -/
def Obligations.GfMulIsTheMultiplicationOfAField : Prop :=
  (∀ a b, gfMul a b = gfMul b a) ∧ (∀ a, gfMul a 0#4 = 0#4) ∧ (∀ a, gfMul a 1#4 = a) ∧
  (∀ a b c, gfMul a (gfMul b c) = gfMul (gfMul a b) c) ∧
  (∀ a b c, gfMul a (b ^^^ c) = gfMul a b ^^^ gfMul a c) ∧
  (∀ a b, gfMul a b = 0#4 → a = 0#4 ∨ b = 0#4) ∧
  (∀ a, a ≠ 0#4 → ∃ b, gfMul a b = 1#4 ∧ ∀ c, gfMul a c = 1#4 → c = b)

/-- R101: SubCells is a bijection on state values for every SBOX_TABLE that the configuration check takes. -/
def Obligations.SubCellsIsABijection : Prop :=
  ∀ sbox : List Nibble, sboxOk sbox = true → Function.Bijective (subCells sbox)

/-- R105: ShiftRows applied four times is the identity, and rotating row r right by r undoes it. -/
def Obligations.ShiftRowsHasPeriodFourAndAnInverse : Prop :=
  ∀ S : Block, shiftRows (shiftRows (shiftRows (shiftRows S))) = S ∧
    (ofCells fun r c => cell (shiftRows S) r (c - r)) = S ∧ ∀ c, cell (shiftRows S) 0 c = cell S 0 c

/-- R109: for every matrix, MixColumnsSerial is linear over XOR, maps 0 to 0, and its columns are independent. -/
def Obligations.MixColumnsIsLinearColumnByColumn : Prop :=
  ∀ (mc : List (List Nibble)) (A B : Block),
    mixColumns mc (A ^^^ B) = mixColumns mc A ^^^ mixColumns mc B ∧ mixColumns mc 0#64 = 0#64 ∧
    ∀ c : Fin 4, (∀ r, cell A r c = cell B r c) → ∀ j, cell (mixColumns mc A) j c = cell (mixColumns mc B) j c

/-- R121, R122: AddConstants XORs the 64-bit value ACV(r) into SV, so it is its own inverse. -/
def Obligations.AddConstantsXorsOneConstantBlock : Prop :=
  ∀ (rc : List Nat) (r : Nat) (S : Block),
    let hi : Nibble := ((rcAt rc r).extractLsb' 3 3).setWidth 4
    let lo : Nibble := ((rcAt rc r).extractLsb' 0 3).setWidth 4
    addConstants rc r S =
      S ^^^ (0x0#4 ++ hi ++ 0x00#8 ++ 0x1#4 ++ lo ++ 0x00#8 ++ 0x2#4 ++ hi ++ 0x00#8 ++ 0x3#4 ++ lo ++ 0x00#8) ∧
    addConstants rc r (addConstants rc r S) = S

/-- R135: the properties of the three key schedules. -/
def Obligations.KeySchedulesHaveTheirStatedProperties : Prop :=
  ∀ (kv : Key) (g i : Nat) (S : Block) (ks : KeySchedule),
    subkey .ledCyclic kv (g + 5) = subkey .ledCyclic kv g ∧
    (i < 16 → subkeyNibble .ledCyclic kv 0 i = keyNibble kv i ∧ subkeyNibble .ledCyclic kv 4 i = keyNibble kv (i + 4)) ∧
    (g % 2 = 0 → subkeyNibble .doc46 kv g i = keyNibble kv i ^^^ keyNibble kv (i + 4)) ∧
    (g % 2 = 1 → subkeyNibble .doc46 kv g i = keyNibble kv (i + 4)) ∧
    (g % 2 = 0 → subkeyNibble .alternate kv g i = keyNibble kv i) ∧
    (g % 2 = 1 → subkeyNibble .alternate kv g i = keyNibble kv (i + 4)) ∧
    addRoundKey ks kv g S = S ^^^ subkey ks kv g ∧
    addRoundKey ks kv g (addRoundKey ks kv g S) = S ∧ addRoundKey ks 0#80 g S = S

/-- R149: under the all-zero key, and for every table, the result of Encrypt does not depend on KEY_SCHEDULE. -/
def Obligations.ZeroKeyMakesTheScheduleIrrelevant : Prop :=
  ∀ (cfg : Config) (ks ks' : KeySchedule) (sv : Block),
    cipherEncrypt { cfg with keySchedule := ks } 0#80 sv = cipherEncrypt { cfg with keySchedule := ks' } 0#80 sv

/-- R146, R149: with the default tables (the spec's own, from general knowledge, log entry 12), each round is a bijection on state values,
and for every key and every KEY_SCHEDULE Encrypt is a bijection on messages. -/
def Obligations.EncryptIsABijectionForEveryKey : Prop :=
  ∀ (ks : KeySchedule) (kv : Key),
    (∀ r, Function.Bijective (cipherRound { defaultConfig with keySchedule := ks } r)) ∧
    Function.Bijective (cipherEncrypt { defaultConfig with keySchedule := ks } kv)

/-- R159: on an idle engine, `round r`, `step s` and `encrypt` leave the STATE, KEY and GFRES that their sequences of smaller commands leave. -/
def Obligations.CommandsComposeFromSmallerCommands : Prop :=
  ∀ s : State, s.busy = false →
    (∀ r : BitVec 6, r.toNat ≤ 47 → ∃ t u, runCommands [.round r] s = .next t ∧
      runCommands [.addconst r, .subcells, .shiftrows, .mixcols] s = .next u ∧
      t.done = true ∧ u.done = true ∧ t.sv = u.sv ∧ t.kv = u.kv ∧ t.gfres = u.gfres) ∧
    (∀ g : BitVec 4, g.toNat ≤ 11 → ∃ t u, runCommands [.step g] s = .next t ∧
      runCommands [.round (BitVec.ofNat 6 (4 * g.toNat)), .round (BitVec.ofNat 6 (4 * g.toNat + 1)), .round (BitVec.ofNat 6 (4 * g.toNat + 2)),
        .round (BitVec.ofNat 6 (4 * g.toNat + 3)), .addkey (g + 1#4)] s = .next u ∧
      t.done = true ∧ u.done = true ∧ t.sv = u.sv ∧ t.kv = u.kv ∧ t.gfres = u.gfres) ∧
    (∃ t u, runCommands [.encrypt] s = .next t ∧
      runCommands (.addkey 0#4 :: (List.range 12).map fun g => .step (BitVec.ofNat 4 g)) s = .next u ∧
      t.done = true ∧ u.done = true ∧ t.sv = u.sv ∧ t.kv = u.kv ∧ t.gfres = u.gfres)

/-- R21, R23: a byte of the block or of the key is its two nibbles, the high nibble first. -/
def Obligations.BytesAreTwoNibblesHighFirst : Prop :=
  ∀ (sv : Block) (kv : Key),
    (∀ r : Fin 4, blockByte sv (2 * r.val) = cell sv r 0 ++ cell sv r 1 ∧ blockByte sv (2 * r.val + 1) = cell sv r 2 ++ cell sv r 3) ∧
    ∀ j, j < 10 → keyByte kv j = keyNibble kv (2 * j) ++ keyNibble kv (2 * j + 1)
end

