-- ==== Sys2Proof/Laws/Cells.lean ====
section
/-! SUPPORT. The 4×4 nibble view of a block: packing and unpacking are inverse, and a block is determined by its cells. -/

namespace Sys2Proof.Machine

/-- A bit of a packed row: column 0 is the most significant nibble. -/
theorem packRow_getLsbD (f : Fin 4 → Nibble) (c : Fin 4) (b : Nat) (hb : b < 4) :
    (packRow f).getLsbD (12 - 4 * c.val + b) = (f c).getLsbD b := by
  unfold packRow
  fin_cases c <;> simp only [BitVec.getLsbD_append] <;> interval_cases b <;> simp

/-- The cell at row r, column c of a packed block. -/
@[simp] theorem cell_ofCells (f : Fin 4 → Fin 4 → Nibble) (r c : Fin 4) : cell (ofCells f) r c = f r c := by
  apply BitVec.eq_of_getLsbD_eq
  intro b hb
  have hrow := packRow_getLsbD (f r) c b hb
  rw [← hrow]
  unfold cell ofCells
  rw [BitVec.getLsbD_extractLsb']
  simp only [hb, decide_true, Bool.true_and, BitVec.getLsbD_append]
  fin_cases r <;> fin_cases c <;> interval_cases b <;> rfl

/-- Two blocks with the same cells are equal. -/
theorem block_ext {a b : Block} (h : ∀ r c, cell a r c = cell b r c) : a = b := by
  apply BitVec.eq_of_getLsbD_eq
  intro i hi
  have hr : (63 - i) / 16 < 4 := by omega
  have hc : (63 - i) / 4 % 4 < 4 := by omega
  have hcell := congrArg (fun x : Nibble => x.getLsbD (i % 4)) (h ⟨_, hr⟩ ⟨_, hc⟩)
  simp only [cell, BitVec.getLsbD_extractLsb'] at hcell
  have hpos : 60 - 4 * (4 * ((63 - i) / 16) + (63 - i) / 4 % 4) + i % 4 = i := by omega
  have hlt : i % 4 < 4 := by omega
  simpa [hpos, hlt] using hcell

/-- Unpacking then packing gives the block back. -/
@[simp] theorem ofCells_cell (a : Block) : (ofCells fun r c => cell a r c) = a :=
  block_ext fun r c => by rw [cell_ofCells]

/-- The cells of an XOR are the XORs of the cells. -/
@[simp] theorem cell_xor (a b : Block) (r c : Fin 4) : cell (a ^^^ b) r c = cell a r c ^^^ cell b r c := by
  simp [cell, BitVec.extractLsb'_xor]

/-! ### The cells of each function of the cipher -/

theorem cell_subCells (sbox : List Nibble) (S : Block) (r c : Fin 4) :
    cell (subCells sbox S) r c = sboxAt sbox (cell S r c) := by simp [subCells]

theorem cell_shiftRows (S : Block) (r c : Fin 4) : cell (shiftRows S) r c = cell S r (c + r) := by
  simp [shiftRows]

theorem cell_mixColumns (mc : List (List Nibble)) (S : Block) (j c : Fin 4) :
    cell (mixColumns mc S) j c =
      gfMul (mcAt mc j 0) (cell S 0 c) ^^^ gfMul (mcAt mc j 1) (cell S 1 c)
        ^^^ gfMul (mcAt mc j 2) (cell S 2 c) ^^^ gfMul (mcAt mc j 3) (cell S 3 c) := by simp [mixColumns]

theorem cell_addConstants (rc : List Nat) (k : Nat) (S : Block) (r c : Fin 4) :
    cell (addConstants rc k S) r c = cell S r c ^^^ constantCell (rcAt rc k) r c := by simp [addConstants]

theorem cell_addRoundKey (ks : KeySchedule) (kv : Key) (g : Nat) (S : Block) (r c : Fin 4) :
    cell (addRoundKey ks kv g S) r c = cell S r c ^^^ subkeyNibble ks kv g (4 * r.val + c.val) := by
  simp [addRoundKey]

end Sys2Proof.Machine
end

