-- ==== Sys2Proof/Laws/Decode.lean ====
section
/-! SUPPORT. A command word as its eight fields, and the mask of a row as a condition on the fields. -/

namespace Sys2Proof

/-- The word with the given fields (R71), the most significant first. -/
def joinFields (rsv2 gb ga gi : BitVec 4) (rsv1 : BitVec 2) (ri : BitVec 6) (rsv0 op : BitVec 4) : BitVec (4 + 4 + 4 + 4 + 2 + 6 + 4 + 4) :=
  rsv2 ++ gb ++ ga ++ gi ++ rsv1 ++ ri ++ rsv0 ++ op

theorem append_inj {m n : Nat} {a c : BitVec m} {b d : BitVec n} : a ++ b = c ++ d ↔ a = c ∧ b = d := by
  constructor
  · intro h
    constructor <;> apply BitVec.eq_of_getLsbD_eq <;> intro k hk
    · have hbit := congrArg (fun x => x.getLsbD (n + k)) h
      simpa [BitVec.getLsbD_append] using hbit
    · have hbit := congrArg (fun x => x.getLsbD k) h
      simpa [BitVec.getLsbD_append, hk] using hbit
  · rintro ⟨rfl, rfl⟩; rfl

theorem joinFields_inj {a b c d e f g h a' b' c' d' e' f' g' h'} :
    joinFields a b c d e f g h = joinFields a' b' c' d' e' f' g' h' ↔
      a = a' ∧ b = b' ∧ c = c' ∧ d = d' ∧ e = e' ∧ f = f' ∧ g = g' ∧ h = h' := by
  simp only [joinFields, append_inj]; tauto

theorem joinFields_and {a b c d e f g h a' b' c' d' e' f' g' h'} :
    joinFields a b c d e f g h &&& joinFields a' b' c' d' e' f' g' h' =
      joinFields (a &&& a') (b &&& b') (c &&& c') (d &&& d') (e &&& e') (f &&& f') (g &&& g') (h &&& h') := by
  simp only [joinFields, BitVec.and_append]

/-- A word is the join of its fields. -/
theorem joinFields_of_fields (w : BitVec (4 + 4 + 4 + 4 + 2 + 6 + 4 + 4)) :
    joinFields (rsv2Field w) (gbField w) (gaField w) (giField w) (rsv1Field w) (riField w) (rsv0Field w) (opField w) = w := by
  apply BitVec.eq_of_getLsbD_eq
  intro k hk
  simp only [joinFields, rsv2Field, gbField, gaField, giField, rsv1Field, riField, rsv0Field, opField, BitVec.getLsbD_append]
  have hk' : k < 32 := hk
  clear hk
  interval_cases k <;> simp

/-- A word of a defined opcode fits its row exactly when its reserved fields and the operand fields that its form does not use are 0. -/
theorem fits_row_iff {w : Word} {i : Instr} (hs : selectRow w = some i) :
    w &&& i.mask = i.pattern ↔
      rsv0Field w = 0#4 ∧ rsv1Field w = 0#2 ∧ rsv2Field w = 0#4 ∧
        (opField w ≠ 0x3#4 → opField w ≠ 0x7#4 → riField w = 0#6) ∧
        (opField w ≠ 0x2#4 → opField w ≠ 0x8#4 → giField w = 0#4) ∧
        (opField w ≠ 0x9#4 → gaField w = 0#4 ∧ gbField w = 0#4) := by
  have all4 : ∀ x : BitVec 4, x &&& 15 = x := fun x => BitVec.and_allOnes
  have all2 : ∀ x : BitVec 2, x &&& 3 = x := fun x => BitVec.and_allOnes
  have all6 : ∀ x : BitVec 6, x &&& 63 = x := fun x => BitVec.and_allOnes
  have hw : w &&& i.mask = joinFields (rsv2Field w) (gbField w) (gaField w) (giField w) (rsv1Field w) (riField w) (rsv0Field w) (opField w) &&& i.mask :=
    congrArg (fun x : Word => x &&& i.mask) (joinFields_of_fields w).symm
  rw [hw]
  unfold selectRow at hs
  split at hs <;> cases hs <;> rename_i hn <;>
    (have ho : opField w = BitVec.ofNat 4 (opField w).toNat := by simp
     rw [hn] at ho
     simp only [Instr.mask, Instr.pattern, ho]
     clear hw hn ho)
  iterate 10
    · first
        | rw [show (0xFFFFFFFF#32) = joinFields 15 15 15 15 3 63 15 15 from rfl]
        | rw [show (0xFFF0FFFF#32) = joinFields 15 15 15 0 3 63 15 15 from rfl]
        | rw [show (0xFFFFC0FF#32) = joinFields 15 15 15 15 3 0 15 15 from rfl]
        | rw [show (0xF00FFFFF#32) = joinFields 15 0 0 15 3 63 15 15 from rfl]
      refine (Eq.congr_left joinFields_and).trans ?_
      first
        | rw [show (0x0#32) = joinFields 0 0 0 0 0 0 0 0 from rfl]
        | rw [show (0x1#32) = joinFields 0 0 0 0 0 0 0 1 from rfl]
        | rw [show (0x2#32) = joinFields 0 0 0 0 0 0 0 2 from rfl]
        | rw [show (0x3#32) = joinFields 0 0 0 0 0 0 0 3 from rfl]
        | rw [show (0x4#32) = joinFields 0 0 0 0 0 0 0 4 from rfl]
        | rw [show (0x5#32) = joinFields 0 0 0 0 0 0 0 5 from rfl]
        | rw [show (0x6#32) = joinFields 0 0 0 0 0 0 0 6 from rfl]
        | rw [show (0x7#32) = joinFields 0 0 0 0 0 0 0 7 from rfl]
        | rw [show (0x8#32) = joinFields 0 0 0 0 0 0 0 8 from rfl]
        | rw [show (0x9#32) = joinFields 0 0 0 0 0 0 0 9 from rfl]
      rw [joinFields_inj]
      simp only [all4, all2, all6]
      simp
      tauto

end Sys2Proof
end

