-- ==== Sys2Proof/Machine/HostProgram.lean ====
section
/-! DEFINITION. The host notation (spec 30_encoding.md R81, R82) and a host that runs it against the machine (00_scope.md R14, 44_round_sequencer.md R160). It is not part of the engine: it only makes turns for `step`. -/

namespace Sys2Proof.Machine

/-- The lines of the host notation (R81). Variables and labels are numbers. -/
inductive HostLine where
  /-- `sw OFF, V`. -/
  | sw (off : Nat) (v : Word)
  /-- `lw OFF -> t`. -/
  | lw (off t : Nat)
  /-- `L:`. -/
  | label (l : Nat)
  /-- `bne t, MASK, V, L`. -/
  | bne (t : Nat) (mask v : Word) (l : Nat)
  deriving DecidableEq, Repr

/-- `cmd <command>`: `sw 0x00` of the command's word (R81). -/
def HostLine.cmd (i : Instr) : HostLine := .sw 0x00 (encode i)

/-! ### Pseudo-instructions (R82); l is a fresh label, t the host variable polled -/

/-- `poll OFF, MASK, V`. -/
def hostPoll (off : Nat) (mask v : Word) (l t : Nat) : List HostLine :=
  [.label l, .lw off t, .bne t mask v l]
/-- `wait_idle`. -/
def waitIdle (l t : Nat) : List HostLine := hostPoll 0x04 0x00000001#32 0x00000000#32 l t
/-- `wait_done`. -/
def waitDone (l t : Nat) : List HostLine := hostPoll 0x04 0x00000002#32 0x00000002#32 l t
/-- `clr_status`. -/
def clrStatus : List HostLine := [.sw 0x04 0x00000006#32]
/-- `ld_state H, L`. -/
def ldState (h l : Word) : List HostLine := [.sw 0x10 h, .sw 0x14 l]
/-- `ld_key H, M, L`. -/
def ldKey (h m l : Word) : List HostLine := [.sw 0x18 h, .sw 0x1C m, .sw 0x20 l]
/-- `rd_state -> h, l`. -/
def rdState (h l : Nat) : List HostLine := [.lw 0x10 h, .lw 0x14 l]
/-- `encrypt_block H, M, L, PH, PL -> h, l`, with two fresh labels. -/
def encryptBlock (kh km kl ph pl : Word) (h l t l1 l2 : Nat) : List HostLine :=
  waitIdle l1 t ++ ldKey kh km kl ++ ldState ph pl ++ [.cmd .encrypt] ++ waitDone l2 t ++ rdState h l

/-! ### Running a host program -/

/-- A host running its program against one engine: the machine, the next line, the variables assigned so far (the newest first). -/
structure HostRun where
  machine : State
  pc      : Nat
  vars    : List (Nat × Word)
  deriving DecidableEq, Repr

/-- The value of a host variable. -/
def HostRun.var (h : HostRun) (t : Nat) : Option Word := h.vars.lookup t

/-- The position of a label in a program. -/
def labelPos (prog : List HostLine) (l : Nat) : Option Nat := prog.idxOf? (.label l)

/-- What a host does next. -/
inductive HostMove where
  /-- `BusWrite(off, v)`. -/
  | store (off : Nat) (v : Word)
  /-- `t <- BusRead(off)`. -/
  | load (off t : Nat)
  /-- No access: the host goes on at a line. -/
  | goto (pc : Nat)
  /-- There is no line left. -/
  | past
  /-- R81 gives the line no meaning. -/
  | refuse (r : Refusal)
  deriving DecidableEq, Repr

/-- The host's move at its next line (R81). -/
def HostRun.move (prog : List HostLine) (h : HostRun) : HostMove :=
  match prog[h.pc]? with
  | none => .past
  | some (.sw off v) => .store off v
  | some (.lw off t) => .load off t
  | some (.label _) => .goto (h.pc + 1)
  | some (.bne t mask v l) =>
    match h.var t, labelPos prog l with
    | none, _ => .refuse .hostVariableUnset
    | _, none => .refuse .hostLabelMissing
    | some x, some at_ => .goto (if x &&& mask ≠ v then at_ else h.pc + 1)

/-- The host performs an event and goes on at line pc, the engine taking `micro` micro-steps after it. A line that reads assigns the value to its variable. -/
def HostRun.perform (e : Event) (micro pc : Nat) (dest : Option Nat) (h : HostRun) : Host.Outcome HostRun Fault Refusal :=
  match step { h.machine with inputs := { event := e, micro := micro } :: h.machine.inputs } with
  | .next m =>
    .next
      { machine := m, pc := pc,
        vars := match dest with
          | some t => (t, m.responses.headD 0#32) :: h.vars
          | none => h.vars }
  | .fault x => .fault x
  | .refused x => .refused x

/-- One line of the host program (R81); the engine takes `micro` micro-steps after the line (D26). With no line left only the engine acts. -/
def HostRun.next (prog : List HostLine) (micro : Nat) (h : HostRun) : Host.Outcome HostRun Fault Refusal :=
  match h.move prog with
  | .store off v => h.perform (.write (h.machine.cfg.ledBase + off) 4 v) micro (h.pc + 1) none
  | .load off t => h.perform (.read (h.machine.cfg.ledBase + off) 4) micro (h.pc + 1) (some t)
  | .goto pc => h.perform .quiet micro pc none
  | .past => h.perform .quiet micro h.pc none
  | .refuse r => .refused r

/-! ### The end of a run (R160) -/

/-- The next move is an access of the window. -/
def HostMove.isAccess : HostMove → Bool
  | .store _ _ => true
  | .load _ _ => true
  | .goto _ => false
  | .past => false
  | .refuse _ => false

/-- The host after k lines that make no access: labels and branches, which leave its variables alone. It stays where its next line is no such line. -/
def HostRun.follow (prog : List HostLine) : Nat → HostRun → HostRun
  | 0, h => h
  | k + 1, h =>
    match h.move prog with
    | .goto pc => HostRun.follow prog k { h with pc := pc }
    | _ => h

/-- The program has ended: it has issued its last access (R160). Whatever the engine does, the lines still to come make none:
the labels and branches that follow lead past the program, or round a loop, without one. As many of them as the program has lines are enough to know
(`HostRun.ended_iff`). A read returns in the step that issues it. -/
def HostRun.ended (prog : List HostLine) (h : HostRun) : Bool :=
  !((h.follow prog prog.length).move prog).isAccess

/-- The end of a run: the program has ended and the engine is quiescent (R160). -/
def HostRun.finished (prog : List HostLine) (h : HostRun) : Bool := h.ended prog && !h.machine.busy

/-- A run of the host, one line for each entry of the schedule (the micro-steps the engine takes after that line). -/
def HostRun.run (prog : List HostLine) : List Nat → HostRun → Host.Outcome HostRun Fault Refusal
  | [], h => .next h
  | n :: ns, h =>
    match h.next prog n with
    | .next h' => HostRun.run prog ns h'
    | .fault x => .fault x
    | .refused x => .refused x

end Sys2Proof.Machine
end

