-- ==== Sys2Proof/Laws/HostProgram.lean ====
section
/-! SUPPORT. The end of a host program (R160): what `HostRun.ended` says, and that it lasts. -/

namespace Sys2Proof.Machine

theorem follow_zero (prog : List HostLine) (h : HostRun) : h.follow prog 0 = h := rfl

theorem follow_goto {prog : List HostLine} {h : HostRun} {pc : Nat} (hm : h.move prog = .goto pc) (k : Nat) :
    h.follow prog (k + 1) = HostRun.follow prog k { h with pc := pc } := by
  simp only [HostRun.follow, hm]

/-- A host at an access, at its end or at a refused line does not follow on. -/
theorem follow_stop {prog : List HostLine} {h : HostRun} (hm : ∀ pc, h.move prog ≠ .goto pc) (k : Nat) : h.follow prog k = h := by
  cases k with
  | zero => rfl
  | succ k =>
    rw [HostRun.follow]
    split
    · rename_i pc hpc; exact absurd hpc (hm pc)
    · rfl

/-- Lines without an access compose. -/
theorem follow_add (prog : List HostLine) (j k : Nat) (h : HostRun) :
    h.follow prog (j + k) = (h.follow prog j).follow prog k := by
  induction j generalizing h with
  | zero => simp [follow_zero]
  | succ j ih =>
    by_cases hg : ∃ pc, h.move prog = .goto pc
    · obtain ⟨pc, hpc⟩ := hg
      rw [Nat.add_right_comm, follow_goto hpc, follow_goto hpc, ih]
    · have hstop : ∀ pc, h.move prog ≠ .goto pc := fun pc hpc => hg ⟨pc, hpc⟩
      rw [follow_stop hstop, follow_stop hstop, follow_stop hstop]

/-- The move reads the line and the variables, not the machine. -/
theorem move_congr {prog : List HostLine} {h h' : HostRun} (hp : h'.pc = h.pc) (hv : h'.vars = h.vars) : h'.move prog = h.move prog := by
  simp only [HostRun.move, HostRun.var, hp, hv]

/-- Following labels and branches changes only the line. -/
theorem follow_eq (prog : List HostLine) (k : Nat) (h : HostRun) : h.follow prog k = { h with pc := (h.follow prog k).pc } := by
  induction k generalizing h with
  | zero => rfl
  | succ k ih =>
    rw [HostRun.follow]
    split
    · exact ih _
    · rfl

/-- Two hosts at one line with the same variables follow the same lines. -/
theorem follow_congr {prog : List HostLine} {h h' : HostRun} (hp : h'.pc = h.pc) (hv : h'.vars = h.vars) (k : Nat) :
    (h'.follow prog k).pc = (h.follow prog k).pc ∧ (h'.follow prog k).vars = (h.follow prog k).vars := by
  induction k generalizing h h' with
  | zero => exact ⟨hp, hv⟩
  | succ k ih =>
    rw [HostRun.follow, HostRun.follow, move_congr hp hv]
    split
    · exact ih rfl hv
    · exact ⟨hp, hv⟩

/-- A move that is no end is at a line of the program. -/
theorem move_lt {prog : List HostLine} {h : HostRun} (hm : h.move prog ≠ .past) : h.pc < prog.length := by
  by_contra hlt
  apply hm
  rw [HostRun.move, List.getElem?_eq_none (Nat.le_of_not_lt hlt)]

/-- If an access ever comes, it comes within as many lines as the program has: a longer way passes one line twice and never leaves its loop. -/
theorem access_within_length {prog : List HostLine} {h : HostRun} {k : Nat} (hk : ((h.follow prog k).move prog).isAccess = true) :
    ((h.follow prog prog.length).move prog).isAccess = true := by
  induction k using Nat.strong_induction_on with
  | _ k ih =>
    have hstop : ∀ pc, (h.follow prog k).move prog ≠ .goto pc := by
      intro pc hpc; rw [hpc] at hk; cases hk
    by_cases hle : k ≤ prog.length
    · rw [← Nat.add_sub_cancel' hle, follow_add, follow_stop hstop]; exact hk
    · -- every line passed on the way is a line of the program
      have hlt : ∀ i : Fin (prog.length + 1), (h.follow prog i).pc < prog.length := by
        intro i
        apply move_lt
        intro hpast
        have hend : ∀ pc, (h.follow prog i).move prog ≠ .goto pc := by rw [hpast]; simp
        have hik : i.val ≤ k := by omega
        rw [← Nat.add_sub_cancel' hik, follow_add, follow_stop hend, hpast] at hk
        cases hk
      obtain ⟨i, j, hij, hpc⟩ := Fintype.exists_ne_map_eq_of_card_lt (fun i => (⟨_, hlt i⟩ : Fin prog.length)) (by simp)
      have hpc : (h.follow prog i).pc = (h.follow prog j).pc := congrArg Fin.val hpc
      have shorter : ∀ a b : Fin (prog.length + 1), a.val < b.val → (h.follow prog a).pc = (h.follow prog b).pc →
          ((h.follow prog prog.length).move prog).isAccess = true := by
        intro a b hab hp
        apply ih (a.val + (k - b.val)) (by omega)
        have hbk : b.val ≤ k := by omega
        have hv : (h.follow prog a).vars = (h.follow prog b).vars := by rw [follow_eq prog a, follow_eq prog b]
        obtain ⟨hp', hv'⟩ := follow_congr (prog := prog) hp hv (k - b.val)
        rw [follow_add, move_congr hp' hv', ← follow_add, Nat.add_sub_cancel' hbk]
        exact hk
      rcases Nat.lt_or_gt_of_ne (fun e => hij (Fin.ext e)) with hlt' | hgt'
      · exact shorter i j hlt' hpc
      · exact shorter j i hgt' hpc.symm

/-- A program has ended exactly when no number of lines without an access leads to an access (R160). -/
theorem HostRun.ended_iff (prog : List HostLine) (h : HostRun) :
    h.ended prog = true ↔ ∀ k, ((h.follow prog k).move prog).isAccess = false := by
  constructor
  · intro he k
    by_contra hk
    have hacc := access_within_length (prog := prog) (h := h) (k := k) (by simpa using hk)
    simp [HostRun.ended, hacc] at he
  · intro hall
    simp [HostRun.ended, hall]

/-- The line that a host performs, if it goes on. -/
theorem perform_next {e : Event} {micro pc : Nat} {dest : Option Nat} {h h' : HostRun} (hn : h.perform e micro pc dest = .next h') :
    h'.pc = pc ∧ (dest = none → h'.vars = h.vars) := by
  unfold HostRun.perform at hn
  split at hn <;> cases hn
  exact ⟨rfl, by rintro rfl; rfl⟩

/-- A program that has ended stays ended, whatever the engine does, and its variables keep their values. -/
theorem ended_next {prog : List HostLine} {h h' : HostRun} {micro : Nat} (he : h.ended prog = true) (hn : h.next prog micro = .next h') :
    h'.ended prog = true ∧ h'.vars = h.vars := by
  rw [HostRun.ended_iff] at he
  have h0 := he 0
  unfold HostRun.next at hn
  split at hn
  · rename_i off v hm; simp [follow_zero, hm, HostMove.isAccess] at h0
  · rename_i off t hm; simp [follow_zero, hm, HostMove.isAccess] at h0
  · rename_i pc hm
    obtain ⟨hp, hv⟩ := perform_next hn
    refine ⟨?_, hv rfl⟩
    rw [HostRun.ended_iff]
    intro k
    obtain ⟨hp', hv'⟩ := follow_congr (prog := prog) (h := { h with pc := pc }) (h' := h') hp (hv rfl) k
    rw [move_congr hp' hv', ← follow_goto hm]
    exact he (k + 1)
  · obtain ⟨hp, hv⟩ := perform_next hn
    refine ⟨?_, hv rfl⟩
    rw [HostRun.ended_iff]
    intro k
    obtain ⟨hp', hv'⟩ := follow_congr (prog := prog) hp (hv rfl) k
    rw [move_congr hp' hv']
    exact he k
  · cases hn

end Sys2Proof.Machine
end

