-- ==== Sys2Proof/Laws/PerInstr.lean ====
section
/-! SUPPORT. Facts about every command as syntax, one lemma per constructor. -/

/-! ### EncodesItsRow: the word of a command fits its row's mask and match (R74), whatever its operands -/

def Sys2Proof.Laws.EncodesItsRow.Statement (i : Sys2Proof.Instr) : Prop :=
  Sys2Proof.encode i &&& i.mask = i.pattern

namespace Sys2Proof.Laws.EncodesItsRow

theorem nop : Statement .nop := by unfold Statement; decide
theorem encrypt : Statement .encrypt := by unfold Statement; decide
theorem addkey (g : BitVec 4) : Statement (.addkey g) := by unfold Statement; revert g; decide
theorem addconst (r : BitVec 6) : Statement (.addconst r) := by unfold Statement; revert r; decide
theorem subcells : Statement .subcells := by unfold Statement; decide
theorem shiftrows : Statement .shiftrows := by unfold Statement; decide
theorem mixcols : Statement .mixcols := by unfold Statement; decide
theorem round (r : BitVec 6) : Statement (.round r) := by unfold Statement; revert r; decide
theorem step (g : BitVec 4) : Statement (.step g) := by unfold Statement; revert g; decide
theorem gfmul (a b : BitVec 4) : Statement (.gfmul a b) := by
  unfold Statement
  simp only [encode, Instr.mask, Instr.pattern]
  ext j hj
  simp only [BitVec.getElem_and, BitVec.getElem_or, BitVec.getElem_shiftLeft, BitVec.getElem_setWidth]
  interval_cases j <;> simp

end Sys2Proof.Laws.EncodesItsRow
end

