-- ==== Sys2Proof/Laws/State.lean ====
section
/-! SUPPORT. What each named operation does to each field of State: one lemma per field per operation, true by rfl, so that no later proof unfolds a record update. -/

namespace Sys2Proof.Machine

variable (s : State)

@[simp] theorem raiseError_cfg (c : ErrCode) : (s.raiseError c).cfg = s.cfg := rfl
@[simp] theorem raiseError_sv (c : ErrCode) : (s.raiseError c).sv = s.sv := rfl
@[simp] theorem raiseError_kv (c : ErrCode) : (s.raiseError c).kv = s.kv := rfl
@[simp] theorem raiseError_gfres (c : ErrCode) : (s.raiseError c).gfres = s.gfres := rfl
@[simp] theorem raiseError_busy (c : ErrCode) : (s.raiseError c).busy = s.busy := rfl
@[simp] theorem raiseError_done (c : ErrCode) : (s.raiseError c).done = s.done := rfl
@[simp] theorem raiseError_err (c : ErrCode) : (s.raiseError c).err = true := rfl
@[simp] theorem raiseError_errCode (c : ErrCode) : (s.raiseError c).errCode = (if s.err then s.errCode else c) := rfl
@[simp] theorem raiseError_doneIe (c : ErrCode) : (s.raiseError c).doneIe = s.doneIe := rfl
@[simp] theorem raiseError_errIe (c : ErrCode) : (s.raiseError c).errIe = s.errIe := rfl
@[simp] theorem raiseError_rcnt (c : ErrCode) : (s.raiseError c).rcnt = s.rcnt := rfl
@[simp] theorem raiseError_kcnt (c : ErrCode) : (s.raiseError c).kcnt = s.kcnt := rfl
@[simp] theorem raiseError_cur (c : ErrCode) : (s.raiseError c).cur = s.cur := rfl
@[simp] theorem raiseError_seq (c : ErrCode) : (s.raiseError c).seq = s.seq := rfl
@[simp] theorem raiseError_inReset (c : ErrCode) : (s.raiseError c).inReset = s.inReset := rfl
@[simp] theorem raiseError_inputs (c : ErrCode) : (s.raiseError c).inputs = s.inputs := rfl
@[simp] theorem raiseError_grant (c : ErrCode) : (s.raiseError c).grant = s.grant := rfl
@[simp] theorem raiseError_responses (c : ErrCode) : (s.raiseError c).responses = s.responses := rfl
@[simp] theorem raiseError_draws (c : ErrCode) : (s.raiseError c).draws = s.draws := rfl

@[simp] theorem writeStatus_cfg (v : Word) : (s.writeStatus v).cfg = s.cfg := rfl
@[simp] theorem writeStatus_sv (v : Word) : (s.writeStatus v).sv = s.sv := rfl
@[simp] theorem writeStatus_kv (v : Word) : (s.writeStatus v).kv = s.kv := rfl
@[simp] theorem writeStatus_gfres (v : Word) : (s.writeStatus v).gfres = s.gfres := rfl
@[simp] theorem writeStatus_busy (v : Word) : (s.writeStatus v).busy = s.busy := rfl
@[simp] theorem writeStatus_done (v : Word) : (s.writeStatus v).done = (if v.getLsbD 1 then false else s.done) := rfl
@[simp] theorem writeStatus_err (v : Word) : (s.writeStatus v).err = (if v.getLsbD 2 then false else s.err) := rfl
@[simp] theorem writeStatus_errCode (v : Word) : (s.writeStatus v).errCode = (if v.getLsbD 2 then ErrCode.none else s.errCode) := rfl
@[simp] theorem writeStatus_doneIe (v : Word) : (s.writeStatus v).doneIe = s.doneIe := rfl
@[simp] theorem writeStatus_errIe (v : Word) : (s.writeStatus v).errIe = s.errIe := rfl
@[simp] theorem writeStatus_rcnt (v : Word) : (s.writeStatus v).rcnt = s.rcnt := rfl
@[simp] theorem writeStatus_kcnt (v : Word) : (s.writeStatus v).kcnt = s.kcnt := rfl
@[simp] theorem writeStatus_cur (v : Word) : (s.writeStatus v).cur = s.cur := rfl
@[simp] theorem writeStatus_seq (v : Word) : (s.writeStatus v).seq = s.seq := rfl
@[simp] theorem writeStatus_inReset (v : Word) : (s.writeStatus v).inReset = s.inReset := rfl
@[simp] theorem writeStatus_inputs (v : Word) : (s.writeStatus v).inputs = s.inputs := rfl
@[simp] theorem writeStatus_grant (v : Word) : (s.writeStatus v).grant = s.grant := rfl
@[simp] theorem writeStatus_responses (v : Word) : (s.writeStatus v).responses = s.responses := rfl
@[simp] theorem writeStatus_draws (v : Word) : (s.writeStatus v).draws = s.draws := rfl

@[simp] theorem writeIrqen_cfg (v : Word) : (s.writeIrqen v).cfg = s.cfg := rfl
@[simp] theorem writeIrqen_sv (v : Word) : (s.writeIrqen v).sv = s.sv := rfl
@[simp] theorem writeIrqen_kv (v : Word) : (s.writeIrqen v).kv = s.kv := rfl
@[simp] theorem writeIrqen_gfres (v : Word) : (s.writeIrqen v).gfres = s.gfres := rfl
@[simp] theorem writeIrqen_busy (v : Word) : (s.writeIrqen v).busy = s.busy := rfl
@[simp] theorem writeIrqen_done (v : Word) : (s.writeIrqen v).done = s.done := rfl
@[simp] theorem writeIrqen_err (v : Word) : (s.writeIrqen v).err = s.err := rfl
@[simp] theorem writeIrqen_errCode (v : Word) : (s.writeIrqen v).errCode = s.errCode := rfl
@[simp] theorem writeIrqen_doneIe (v : Word) : (s.writeIrqen v).doneIe = v.getLsbD 0 := rfl
@[simp] theorem writeIrqen_errIe (v : Word) : (s.writeIrqen v).errIe = v.getLsbD 1 := rfl
@[simp] theorem writeIrqen_rcnt (v : Word) : (s.writeIrqen v).rcnt = s.rcnt := rfl
@[simp] theorem writeIrqen_kcnt (v : Word) : (s.writeIrqen v).kcnt = s.kcnt := rfl
@[simp] theorem writeIrqen_cur (v : Word) : (s.writeIrqen v).cur = s.cur := rfl
@[simp] theorem writeIrqen_seq (v : Word) : (s.writeIrqen v).seq = s.seq := rfl
@[simp] theorem writeIrqen_inReset (v : Word) : (s.writeIrqen v).inReset = s.inReset := rfl
@[simp] theorem writeIrqen_inputs (v : Word) : (s.writeIrqen v).inputs = s.inputs := rfl
@[simp] theorem writeIrqen_grant (v : Word) : (s.writeIrqen v).grant = s.grant := rfl
@[simp] theorem writeIrqen_responses (v : Word) : (s.writeIrqen v).responses = s.responses := rfl
@[simp] theorem writeIrqen_draws (v : Word) : (s.writeIrqen v).draws = s.draws := rfl

@[simp] theorem accept_cfg (i : Instr) : (s.accept i).cfg = s.cfg := rfl
@[simp] theorem accept_sv (i : Instr) : (s.accept i).sv = s.sv := rfl
@[simp] theorem accept_kv (i : Instr) : (s.accept i).kv = s.kv := rfl
@[simp] theorem accept_gfres (i : Instr) : (s.accept i).gfres = s.gfres := rfl
@[simp] theorem accept_busy (i : Instr) : (s.accept i).busy = true := rfl
@[simp] theorem accept_done (i : Instr) : (s.accept i).done = false := rfl
@[simp] theorem accept_err (i : Instr) : (s.accept i).err = s.err := rfl
@[simp] theorem accept_errCode (i : Instr) : (s.accept i).errCode = s.errCode := rfl
@[simp] theorem accept_doneIe (i : Instr) : (s.accept i).doneIe = s.doneIe := rfl
@[simp] theorem accept_errIe (i : Instr) : (s.accept i).errIe = s.errIe := rfl
@[simp] theorem accept_rcnt (i : Instr) : (s.accept i).rcnt = (if i = .encrypt then 0#6 else s.rcnt) := rfl
@[simp] theorem accept_kcnt (i : Instr) : (s.accept i).kcnt = (if i = .encrypt then 0#4 else s.kcnt) := rfl
@[simp] theorem accept_cur (i : Instr) : (s.accept i).cur = some i := rfl
@[simp] theorem accept_seq (i : Instr) : (s.accept i).seq = 0 := rfl
@[simp] theorem accept_inReset (i : Instr) : (s.accept i).inReset = s.inReset := rfl
@[simp] theorem accept_inputs (i : Instr) : (s.accept i).inputs = s.inputs := rfl
@[simp] theorem accept_grant (i : Instr) : (s.accept i).grant = s.grant := rfl
@[simp] theorem accept_responses (i : Instr) : (s.accept i).responses = s.responses := rfl
@[simp] theorem accept_draws (i : Instr) : (s.accept i).draws = s.draws := rfl

@[simp] theorem complete_cfg : (s.complete).cfg = s.cfg := rfl
@[simp] theorem complete_sv : (s.complete).sv = s.sv := rfl
@[simp] theorem complete_kv : (s.complete).kv = s.kv := rfl
@[simp] theorem complete_gfres : (s.complete).gfres = s.gfres := rfl
@[simp] theorem complete_busy : (s.complete).busy = false := rfl
@[simp] theorem complete_done : (s.complete).done = true := rfl
@[simp] theorem complete_err : (s.complete).err = s.err := rfl
@[simp] theorem complete_errCode : (s.complete).errCode = s.errCode := rfl
@[simp] theorem complete_doneIe : (s.complete).doneIe = s.doneIe := rfl
@[simp] theorem complete_errIe : (s.complete).errIe = s.errIe := rfl
@[simp] theorem complete_rcnt : (s.complete).rcnt = s.rcnt := rfl
@[simp] theorem complete_kcnt : (s.complete).kcnt = s.kcnt := rfl
@[simp] theorem complete_cur : (s.complete).cur = none := rfl
@[simp] theorem complete_seq : (s.complete).seq = s.seq := rfl
@[simp] theorem complete_inReset : (s.complete).inReset = s.inReset := rfl
@[simp] theorem complete_inputs : (s.complete).inputs = s.inputs := rfl
@[simp] theorem complete_grant : (s.complete).grant = s.grant := rfl
@[simp] theorem complete_responses : (s.complete).responses = s.responses := rfl
@[simp] theorem complete_draws : (s.complete).draws = s.draws := rfl

@[simp] theorem nextSeq_cfg : (s.nextSeq).cfg = s.cfg := rfl
@[simp] theorem nextSeq_sv : (s.nextSeq).sv = s.sv := rfl
@[simp] theorem nextSeq_kv : (s.nextSeq).kv = s.kv := rfl
@[simp] theorem nextSeq_gfres : (s.nextSeq).gfres = s.gfres := rfl
@[simp] theorem nextSeq_busy : (s.nextSeq).busy = s.busy := rfl
@[simp] theorem nextSeq_done : (s.nextSeq).done = s.done := rfl
@[simp] theorem nextSeq_err : (s.nextSeq).err = s.err := rfl
@[simp] theorem nextSeq_errCode : (s.nextSeq).errCode = s.errCode := rfl
@[simp] theorem nextSeq_doneIe : (s.nextSeq).doneIe = s.doneIe := rfl
@[simp] theorem nextSeq_errIe : (s.nextSeq).errIe = s.errIe := rfl
@[simp] theorem nextSeq_rcnt : (s.nextSeq).rcnt = s.rcnt := rfl
@[simp] theorem nextSeq_kcnt : (s.nextSeq).kcnt = s.kcnt := rfl
@[simp] theorem nextSeq_cur : (s.nextSeq).cur = s.cur := rfl
@[simp] theorem nextSeq_seq : (s.nextSeq).seq = s.seq + 1 := rfl
@[simp] theorem nextSeq_inReset : (s.nextSeq).inReset = s.inReset := rfl
@[simp] theorem nextSeq_inputs : (s.nextSeq).inputs = s.inputs := rfl
@[simp] theorem nextSeq_grant : (s.nextSeq).grant = s.grant := rfl
@[simp] theorem nextSeq_responses : (s.nextSeq).responses = s.responses := rfl
@[simp] theorem nextSeq_draws : (s.nextSeq).draws = s.draws := rfl

@[simp] theorem setSv_cfg (x : Block) : (s.setSv x).cfg = s.cfg := rfl
@[simp] theorem setSv_sv (x : Block) : (s.setSv x).sv = x := rfl
@[simp] theorem setSv_kv (x : Block) : (s.setSv x).kv = s.kv := rfl
@[simp] theorem setSv_gfres (x : Block) : (s.setSv x).gfres = s.gfres := rfl
@[simp] theorem setSv_busy (x : Block) : (s.setSv x).busy = s.busy := rfl
@[simp] theorem setSv_done (x : Block) : (s.setSv x).done = s.done := rfl
@[simp] theorem setSv_err (x : Block) : (s.setSv x).err = s.err := rfl
@[simp] theorem setSv_errCode (x : Block) : (s.setSv x).errCode = s.errCode := rfl
@[simp] theorem setSv_doneIe (x : Block) : (s.setSv x).doneIe = s.doneIe := rfl
@[simp] theorem setSv_errIe (x : Block) : (s.setSv x).errIe = s.errIe := rfl
@[simp] theorem setSv_rcnt (x : Block) : (s.setSv x).rcnt = s.rcnt := rfl
@[simp] theorem setSv_kcnt (x : Block) : (s.setSv x).kcnt = s.kcnt := rfl
@[simp] theorem setSv_cur (x : Block) : (s.setSv x).cur = s.cur := rfl
@[simp] theorem setSv_seq (x : Block) : (s.setSv x).seq = s.seq := rfl
@[simp] theorem setSv_inReset (x : Block) : (s.setSv x).inReset = s.inReset := rfl
@[simp] theorem setSv_inputs (x : Block) : (s.setSv x).inputs = s.inputs := rfl
@[simp] theorem setSv_grant (x : Block) : (s.setSv x).grant = s.grant := rfl
@[simp] theorem setSv_responses (x : Block) : (s.setSv x).responses = s.responses := rfl
@[simp] theorem setSv_draws (x : Block) : (s.setSv x).draws = s.draws := rfl

@[simp] theorem setKv_cfg (x : Key) : (s.setKv x).cfg = s.cfg := rfl
@[simp] theorem setKv_sv (x : Key) : (s.setKv x).sv = s.sv := rfl
@[simp] theorem setKv_kv (x : Key) : (s.setKv x).kv = x := rfl
@[simp] theorem setKv_gfres (x : Key) : (s.setKv x).gfres = s.gfres := rfl
@[simp] theorem setKv_busy (x : Key) : (s.setKv x).busy = s.busy := rfl
@[simp] theorem setKv_done (x : Key) : (s.setKv x).done = s.done := rfl
@[simp] theorem setKv_err (x : Key) : (s.setKv x).err = s.err := rfl
@[simp] theorem setKv_errCode (x : Key) : (s.setKv x).errCode = s.errCode := rfl
@[simp] theorem setKv_doneIe (x : Key) : (s.setKv x).doneIe = s.doneIe := rfl
@[simp] theorem setKv_errIe (x : Key) : (s.setKv x).errIe = s.errIe := rfl
@[simp] theorem setKv_rcnt (x : Key) : (s.setKv x).rcnt = s.rcnt := rfl
@[simp] theorem setKv_kcnt (x : Key) : (s.setKv x).kcnt = s.kcnt := rfl
@[simp] theorem setKv_cur (x : Key) : (s.setKv x).cur = s.cur := rfl
@[simp] theorem setKv_seq (x : Key) : (s.setKv x).seq = s.seq := rfl
@[simp] theorem setKv_inReset (x : Key) : (s.setKv x).inReset = s.inReset := rfl
@[simp] theorem setKv_inputs (x : Key) : (s.setKv x).inputs = s.inputs := rfl
@[simp] theorem setKv_grant (x : Key) : (s.setKv x).grant = s.grant := rfl
@[simp] theorem setKv_responses (x : Key) : (s.setKv x).responses = s.responses := rfl
@[simp] theorem setKv_draws (x : Key) : (s.setKv x).draws = s.draws := rfl

@[simp] theorem setGfres_cfg (x : Nibble) : (s.setGfres x).cfg = s.cfg := rfl
@[simp] theorem setGfres_sv (x : Nibble) : (s.setGfres x).sv = s.sv := rfl
@[simp] theorem setGfres_kv (x : Nibble) : (s.setGfres x).kv = s.kv := rfl
@[simp] theorem setGfres_gfres (x : Nibble) : (s.setGfres x).gfres = x := rfl
@[simp] theorem setGfres_busy (x : Nibble) : (s.setGfres x).busy = s.busy := rfl
@[simp] theorem setGfres_done (x : Nibble) : (s.setGfres x).done = s.done := rfl
@[simp] theorem setGfres_err (x : Nibble) : (s.setGfres x).err = s.err := rfl
@[simp] theorem setGfres_errCode (x : Nibble) : (s.setGfres x).errCode = s.errCode := rfl
@[simp] theorem setGfres_doneIe (x : Nibble) : (s.setGfres x).doneIe = s.doneIe := rfl
@[simp] theorem setGfres_errIe (x : Nibble) : (s.setGfres x).errIe = s.errIe := rfl
@[simp] theorem setGfres_rcnt (x : Nibble) : (s.setGfres x).rcnt = s.rcnt := rfl
@[simp] theorem setGfres_kcnt (x : Nibble) : (s.setGfres x).kcnt = s.kcnt := rfl
@[simp] theorem setGfres_cur (x : Nibble) : (s.setGfres x).cur = s.cur := rfl
@[simp] theorem setGfres_seq (x : Nibble) : (s.setGfres x).seq = s.seq := rfl
@[simp] theorem setGfres_inReset (x : Nibble) : (s.setGfres x).inReset = s.inReset := rfl
@[simp] theorem setGfres_inputs (x : Nibble) : (s.setGfres x).inputs = s.inputs := rfl
@[simp] theorem setGfres_grant (x : Nibble) : (s.setGfres x).grant = s.grant := rfl
@[simp] theorem setGfres_responses (x : Nibble) : (s.setGfres x).responses = s.responses := rfl
@[simp] theorem setGfres_draws (x : Nibble) : (s.setGfres x).draws = s.draws := rfl

@[simp] theorem bumpRcnt_cfg : (s.bumpRcnt).cfg = s.cfg := rfl
@[simp] theorem bumpRcnt_sv : (s.bumpRcnt).sv = s.sv := rfl
@[simp] theorem bumpRcnt_kv : (s.bumpRcnt).kv = s.kv := rfl
@[simp] theorem bumpRcnt_gfres : (s.bumpRcnt).gfres = s.gfres := rfl
@[simp] theorem bumpRcnt_busy : (s.bumpRcnt).busy = s.busy := rfl
@[simp] theorem bumpRcnt_done : (s.bumpRcnt).done = s.done := rfl
@[simp] theorem bumpRcnt_err : (s.bumpRcnt).err = s.err := rfl
@[simp] theorem bumpRcnt_errCode : (s.bumpRcnt).errCode = s.errCode := rfl
@[simp] theorem bumpRcnt_doneIe : (s.bumpRcnt).doneIe = s.doneIe := rfl
@[simp] theorem bumpRcnt_errIe : (s.bumpRcnt).errIe = s.errIe := rfl
@[simp] theorem bumpRcnt_rcnt : (s.bumpRcnt).rcnt = s.rcnt + 1#6 := rfl
@[simp] theorem bumpRcnt_kcnt : (s.bumpRcnt).kcnt = s.kcnt := rfl
@[simp] theorem bumpRcnt_cur : (s.bumpRcnt).cur = s.cur := rfl
@[simp] theorem bumpRcnt_seq : (s.bumpRcnt).seq = s.seq := rfl
@[simp] theorem bumpRcnt_inReset : (s.bumpRcnt).inReset = s.inReset := rfl
@[simp] theorem bumpRcnt_inputs : (s.bumpRcnt).inputs = s.inputs := rfl
@[simp] theorem bumpRcnt_grant : (s.bumpRcnt).grant = s.grant := rfl
@[simp] theorem bumpRcnt_responses : (s.bumpRcnt).responses = s.responses := rfl
@[simp] theorem bumpRcnt_draws : (s.bumpRcnt).draws = s.draws := rfl

@[simp] theorem bumpKcnt_cfg : (s.bumpKcnt).cfg = s.cfg := rfl
@[simp] theorem bumpKcnt_sv : (s.bumpKcnt).sv = s.sv := rfl
@[simp] theorem bumpKcnt_kv : (s.bumpKcnt).kv = s.kv := rfl
@[simp] theorem bumpKcnt_gfres : (s.bumpKcnt).gfres = s.gfres := rfl
@[simp] theorem bumpKcnt_busy : (s.bumpKcnt).busy = s.busy := rfl
@[simp] theorem bumpKcnt_done : (s.bumpKcnt).done = s.done := rfl
@[simp] theorem bumpKcnt_err : (s.bumpKcnt).err = s.err := rfl
@[simp] theorem bumpKcnt_errCode : (s.bumpKcnt).errCode = s.errCode := rfl
@[simp] theorem bumpKcnt_doneIe : (s.bumpKcnt).doneIe = s.doneIe := rfl
@[simp] theorem bumpKcnt_errIe : (s.bumpKcnt).errIe = s.errIe := rfl
@[simp] theorem bumpKcnt_rcnt : (s.bumpKcnt).rcnt = s.rcnt := rfl
@[simp] theorem bumpKcnt_kcnt : (s.bumpKcnt).kcnt = s.kcnt + 1#4 := rfl
@[simp] theorem bumpKcnt_cur : (s.bumpKcnt).cur = s.cur := rfl
@[simp] theorem bumpKcnt_seq : (s.bumpKcnt).seq = s.seq := rfl
@[simp] theorem bumpKcnt_inReset : (s.bumpKcnt).inReset = s.inReset := rfl
@[simp] theorem bumpKcnt_inputs : (s.bumpKcnt).inputs = s.inputs := rfl
@[simp] theorem bumpKcnt_grant : (s.bumpKcnt).grant = s.grant := rfl
@[simp] theorem bumpKcnt_responses : (s.bumpKcnt).responses = s.responses := rfl
@[simp] theorem bumpKcnt_draws : (s.bumpKcnt).draws = s.draws := rfl

@[simp] theorem releaseReset_cfg : (s.releaseReset).cfg = s.cfg := rfl
@[simp] theorem releaseReset_sv : (s.releaseReset).sv = s.sv := rfl
@[simp] theorem releaseReset_kv : (s.releaseReset).kv = s.kv := rfl
@[simp] theorem releaseReset_gfres : (s.releaseReset).gfres = s.gfres := rfl
@[simp] theorem releaseReset_busy : (s.releaseReset).busy = s.busy := rfl
@[simp] theorem releaseReset_done : (s.releaseReset).done = s.done := rfl
@[simp] theorem releaseReset_err : (s.releaseReset).err = s.err := rfl
@[simp] theorem releaseReset_errCode : (s.releaseReset).errCode = s.errCode := rfl
@[simp] theorem releaseReset_doneIe : (s.releaseReset).doneIe = s.doneIe := rfl
@[simp] theorem releaseReset_errIe : (s.releaseReset).errIe = s.errIe := rfl
@[simp] theorem releaseReset_rcnt : (s.releaseReset).rcnt = s.rcnt := rfl
@[simp] theorem releaseReset_kcnt : (s.releaseReset).kcnt = s.kcnt := rfl
@[simp] theorem releaseReset_cur : (s.releaseReset).cur = s.cur := rfl
@[simp] theorem releaseReset_seq : (s.releaseReset).seq = s.seq := rfl
@[simp] theorem releaseReset_inReset : (s.releaseReset).inReset = false := rfl
@[simp] theorem releaseReset_inputs : (s.releaseReset).inputs = s.inputs := rfl
@[simp] theorem releaseReset_grant : (s.releaseReset).grant = s.grant := rfl
@[simp] theorem releaseReset_responses : (s.releaseReset).responses = s.responses := rfl
@[simp] theorem releaseReset_draws : (s.releaseReset).draws = s.draws := rfl

@[simp] theorem respond_cfg (v : Word) : (s.respond v).cfg = s.cfg := rfl
@[simp] theorem respond_sv (v : Word) : (s.respond v).sv = s.sv := rfl
@[simp] theorem respond_kv (v : Word) : (s.respond v).kv = s.kv := rfl
@[simp] theorem respond_gfres (v : Word) : (s.respond v).gfres = s.gfres := rfl
@[simp] theorem respond_busy (v : Word) : (s.respond v).busy = s.busy := rfl
@[simp] theorem respond_done (v : Word) : (s.respond v).done = s.done := rfl
@[simp] theorem respond_err (v : Word) : (s.respond v).err = s.err := rfl
@[simp] theorem respond_errCode (v : Word) : (s.respond v).errCode = s.errCode := rfl
@[simp] theorem respond_doneIe (v : Word) : (s.respond v).doneIe = s.doneIe := rfl
@[simp] theorem respond_errIe (v : Word) : (s.respond v).errIe = s.errIe := rfl
@[simp] theorem respond_rcnt (v : Word) : (s.respond v).rcnt = s.rcnt := rfl
@[simp] theorem respond_kcnt (v : Word) : (s.respond v).kcnt = s.kcnt := rfl
@[simp] theorem respond_cur (v : Word) : (s.respond v).cur = s.cur := rfl
@[simp] theorem respond_seq (v : Word) : (s.respond v).seq = s.seq := rfl
@[simp] theorem respond_inReset (v : Word) : (s.respond v).inReset = s.inReset := rfl
@[simp] theorem respond_inputs (v : Word) : (s.respond v).inputs = s.inputs := rfl
@[simp] theorem respond_grant (v : Word) : (s.respond v).grant = s.grant := rfl
@[simp] theorem respond_responses (v : Word) : (s.respond v).responses = v :: s.responses := rfl
@[simp] theorem respond_draws (v : Word) : (s.respond v).draws = s.draws := rfl

@[simp] theorem respondFree_cfg (m : Word) : (s.respondFree m).cfg = s.cfg := rfl
@[simp] theorem respondFree_sv (m : Word) : (s.respondFree m).sv = s.sv := rfl
@[simp] theorem respondFree_kv (m : Word) : (s.respondFree m).kv = s.kv := rfl
@[simp] theorem respondFree_gfres (m : Word) : (s.respondFree m).gfres = s.gfres := rfl
@[simp] theorem respondFree_busy (m : Word) : (s.respondFree m).busy = s.busy := rfl
@[simp] theorem respondFree_done (m : Word) : (s.respondFree m).done = s.done := rfl
@[simp] theorem respondFree_err (m : Word) : (s.respondFree m).err = s.err := rfl
@[simp] theorem respondFree_errCode (m : Word) : (s.respondFree m).errCode = s.errCode := rfl
@[simp] theorem respondFree_doneIe (m : Word) : (s.respondFree m).doneIe = s.doneIe := rfl
@[simp] theorem respondFree_errIe (m : Word) : (s.respondFree m).errIe = s.errIe := rfl
@[simp] theorem respondFree_rcnt (m : Word) : (s.respondFree m).rcnt = s.rcnt := rfl
@[simp] theorem respondFree_kcnt (m : Word) : (s.respondFree m).kcnt = s.kcnt := rfl
@[simp] theorem respondFree_cur (m : Word) : (s.respondFree m).cur = s.cur := rfl
@[simp] theorem respondFree_seq (m : Word) : (s.respondFree m).seq = s.seq := rfl
@[simp] theorem respondFree_inReset (m : Word) : (s.respondFree m).inReset = s.inReset := rfl
@[simp] theorem respondFree_inputs (m : Word) : (s.respondFree m).inputs = s.inputs := rfl
@[simp] theorem respondFree_grant (m : Word) : (s.respondFree m).grant = s.grant := rfl
@[simp] theorem respondFree_responses (m : Word) : (s.respondFree m).responses = (Config.freeWord s.draws &&& m) :: s.responses := rfl
@[simp] theorem respondFree_draws (m : Word) : (s.respondFree m).draws = s.draws + 1 := rfl

@[simp] theorem keyStep_cfg (g : Nat) : (s.keyStep g).cfg = s.cfg := rfl
@[simp] theorem keyStep_sv (g : Nat) : (s.keyStep g).sv = addRoundKey s.cfg.keySchedule s.kv g s.sv := rfl
@[simp] theorem keyStep_kv (g : Nat) : (s.keyStep g).kv = s.kv := rfl
@[simp] theorem keyStep_gfres (g : Nat) : (s.keyStep g).gfres = s.gfres := rfl
@[simp] theorem keyStep_busy (g : Nat) : (s.keyStep g).busy = s.busy := rfl
@[simp] theorem keyStep_done (g : Nat) : (s.keyStep g).done = s.done := rfl
@[simp] theorem keyStep_err (g : Nat) : (s.keyStep g).err = s.err := rfl
@[simp] theorem keyStep_errCode (g : Nat) : (s.keyStep g).errCode = s.errCode := rfl
@[simp] theorem keyStep_doneIe (g : Nat) : (s.keyStep g).doneIe = s.doneIe := rfl
@[simp] theorem keyStep_errIe (g : Nat) : (s.keyStep g).errIe = s.errIe := rfl
@[simp] theorem keyStep_rcnt (g : Nat) : (s.keyStep g).rcnt = s.rcnt := rfl
@[simp] theorem keyStep_kcnt (g : Nat) : (s.keyStep g).kcnt = s.kcnt := rfl
@[simp] theorem keyStep_cur (g : Nat) : (s.keyStep g).cur = s.cur := rfl
@[simp] theorem keyStep_seq (g : Nat) : (s.keyStep g).seq = s.seq := rfl
@[simp] theorem keyStep_inReset (g : Nat) : (s.keyStep g).inReset = s.inReset := rfl
@[simp] theorem keyStep_inputs (g : Nat) : (s.keyStep g).inputs = s.inputs := rfl
@[simp] theorem keyStep_grant (g : Nat) : (s.keyStep g).grant = s.grant := rfl
@[simp] theorem keyStep_responses (g : Nat) : (s.keyStep g).responses = s.responses := rfl
@[simp] theorem keyStep_draws (g : Nat) : (s.keyStep g).draws = s.draws := rfl

@[simp] theorem roundStep_cfg (r : Nat) : (s.roundStep r).cfg = s.cfg := rfl
@[simp] theorem roundStep_sv (r : Nat) : (s.roundStep r).sv = cipherRound s.cfg r s.sv := rfl
@[simp] theorem roundStep_kv (r : Nat) : (s.roundStep r).kv = s.kv := rfl
@[simp] theorem roundStep_gfres (r : Nat) : (s.roundStep r).gfres = s.gfres := rfl
@[simp] theorem roundStep_busy (r : Nat) : (s.roundStep r).busy = s.busy := rfl
@[simp] theorem roundStep_done (r : Nat) : (s.roundStep r).done = s.done := rfl
@[simp] theorem roundStep_err (r : Nat) : (s.roundStep r).err = s.err := rfl
@[simp] theorem roundStep_errCode (r : Nat) : (s.roundStep r).errCode = s.errCode := rfl
@[simp] theorem roundStep_doneIe (r : Nat) : (s.roundStep r).doneIe = s.doneIe := rfl
@[simp] theorem roundStep_errIe (r : Nat) : (s.roundStep r).errIe = s.errIe := rfl
@[simp] theorem roundStep_rcnt (r : Nat) : (s.roundStep r).rcnt = s.rcnt := rfl
@[simp] theorem roundStep_kcnt (r : Nat) : (s.roundStep r).kcnt = s.kcnt := rfl
@[simp] theorem roundStep_cur (r : Nat) : (s.roundStep r).cur = s.cur := rfl
@[simp] theorem roundStep_seq (r : Nat) : (s.roundStep r).seq = s.seq := rfl
@[simp] theorem roundStep_inReset (r : Nat) : (s.roundStep r).inReset = s.inReset := rfl
@[simp] theorem roundStep_inputs (r : Nat) : (s.roundStep r).inputs = s.inputs := rfl
@[simp] theorem roundStep_grant (r : Nat) : (s.roundStep r).grant = s.grant := rfl
@[simp] theorem roundStep_responses (r : Nat) : (s.roundStep r).responses = s.responses := rfl
@[simp] theorem roundStep_draws (r : Nat) : (s.roundStep r).draws = s.draws := rfl

end Sys2Proof.Machine
end

