-- ==== Sys2Proof/Laws/Sequencer.lean ====
section
/-! SUPPORT. What the sequencer can do: one lemma per shared operation (a micro-step, a turn of the engine, n turns, the issue of a command), cited instead of unfolding it. -/

namespace Sys2Proof.Machine

/-- A micro-step changes at most STATE, GFRES and PROGRESS. -/
theorem microStep_eq (i : Instr) (k : Nat) (s : State) :
    microStep i k s =
      { s with sv := (microStep i k s).sv, gfres := (microStep i k s).gfres,
               rcnt := (microStep i k s).rcnt, kcnt := (microStep i k s).kcnt } := by
  cases i <;> try rfl
  case encrypt => simp only [microStep, microEncrypt]; split <;> [rfl; (split <;> rfl)]
  case step g => simp only [microStep, microStepGroup]; split <;> rfl

/-- The engine's turn while a command is in flight. -/
theorem engineStep_busy {s : State} {i : Instr} (hb : s.busy = true) (hc : s.cur = some i) :
    s.engineStep = ((microStep i s.seq s).nextSeq).completeIfLast i := by
  simp [State.engineStep, hb, hc]

/-- An idle engine's turn changes nothing. -/
theorem engineStep_idle {s : State} (hb : s.busy = false) : s.engineStep = s := by
  simp [State.engineStep, hb]

/-- Any number of turns of an idle engine change nothing. -/
theorem advance_idle {s : State} (hb : s.busy = false) (n : Nat) : s.advance n = s := by
  induction n with
  | zero => rfl
  | succ n ih => rw [State.advance, engineStep_idle hb, ih]

@[simp] theorem advance_zero (s : State) : s.advance 0 = s := rfl

theorem advance_succ (s : State) (n : Nat) : s.advance (n + 1) = s.engineStep.advance n := rfl

/-- Turns of the engine compose. -/
theorem advance_add (s : State) (m n : Nat) : s.advance (m + n) = (s.advance m).advance n := by
  induction m generalizing s with
  | zero => simp
  | succ m ih => rw [Nat.add_right_comm, advance_succ, ih, ← advance_succ]

/-- With no grant the engine only gives the turn back. -/
theorem runGrant_zero {s : State} (h : s.grant = 0) : s.runGrant = s := by
  cases s; cases h; rfl

/-- An idle engine makes nothing of its grant. -/
theorem runGrant_idle {s : State} (h : s.busy = false) : s.runGrant = { s with grant := 0 } := by
  rw [State.runGrant, advance_idle]
  exact h

/-- The parts of the state that a turn of the engine never touches. -/
structure State.SameOutside (s t : State) : Prop where
  cfg : t.cfg = s.cfg
  kv : t.kv = s.kv
  err : t.err = s.err
  errCode : t.errCode = s.errCode
  doneIe : t.doneIe = s.doneIe
  errIe : t.errIe = s.errIe
  inReset : t.inReset = s.inReset
  inputs : t.inputs = s.inputs
  responses : t.responses = s.responses
  draws : t.draws = s.draws

theorem State.SameOutside.refl (s : State) : s.SameOutside s := ⟨rfl, rfl, rfl, rfl, rfl, rfl, rfl, rfl, rfl, rfl⟩

theorem State.SameOutside.trans {s t u : State} (h : s.SameOutside t) (h' : t.SameOutside u) : s.SameOutside u :=
  ⟨h'.cfg.trans h.cfg, h'.kv.trans h.kv, h'.err.trans h.err, h'.errCode.trans h.errCode, h'.doneIe.trans h.doneIe,
    h'.errIe.trans h.errIe, h'.inReset.trans h.inReset, h'.inputs.trans h.inputs, h'.responses.trans h.responses,
    h'.draws.trans h.draws⟩

/-- A turn of the engine leaves KEY, the errors, IRQEN, the configuration and the outside world alone. -/
theorem engineStep_sameOutside (s : State) : s.SameOutside s.engineStep := by
  unfold State.engineStep
  split
  · rename_i i _ _
    rw [microStep_eq]
    unfold State.completeIfLast
    split <;> exact ⟨rfl, rfl, rfl, rfl, rfl, rfl, rfl, rfl, rfl, rfl⟩
  · exact State.SameOutside.refl s

theorem advance_sameOutside (s : State) (n : Nat) : s.SameOutside (s.advance n) := by
  induction n generalizing s with
  | zero => exact State.SameOutside.refl s
  | succ n ih => exact (engineStep_sameOutside s).trans (ih s.engineStep)

theorem runGrant_sameOutside (s : State) : s.SameOutside s.runGrant := by
  have h := advance_sameOutside { s with grant := 0 } s.grant
  exact ⟨h.cfg, h.kv, h.err, h.errCode, h.doneIe, h.errIe, h.inReset, h.inputs, h.responses, h.draws⟩

/-- A micro-step before the last: the command goes on. -/
theorem engineStep_middle {s : State} {i : Instr} (hb : s.busy = true) (hc : s.cur = some i) (h : s.seq + 1 < nsteps i) :
    s.engineStep = (microStep i s.seq s).nextSeq := by
  rw [engineStep_busy hb hc, State.completeIfLast, if_neg]
  rw [nextSeq_seq, microStep_eq]
  exact Nat.not_le.mpr h

/-- The last micro-step: the command completes. -/
theorem engineStep_last {s : State} {i : Instr} (hb : s.busy = true) (hc : s.cur = some i) (h : nsteps i ≤ s.seq + 1) :
    s.engineStep = ((microStep i s.seq s).nextSeq).complete := by
  rw [engineStep_busy hb hc, State.completeIfLast, if_pos]
  rw [nextSeq_seq, microStep_eq]
  exact h

/-! ### The engine reads only its data and its sequencer -/

/-- Two states with the same configuration, data registers, PROGRESS and sequencer. -/
structure State.SameData (s t : State) : Prop where
  cfg : t.cfg = s.cfg
  sv : t.sv = s.sv
  kv : t.kv = s.kv
  gfres : t.gfres = s.gfres
  rcnt : t.rcnt = s.rcnt
  kcnt : t.kcnt = s.kcnt
  busy : t.busy = s.busy
  cur : t.cur = s.cur
  seq : t.seq = s.seq

theorem microStep_sameData {s t : State} (h : s.SameData t) (i : Instr) (k : Nat) :
    (microStep i k s).SameData (microStep i k t) := by
  obtain ⟨h1, h2, h3, h4, h5, h6, h7, h8, h9⟩ := h
  cases s; cases t; simp only at *; subst_vars
  cases i <;> try (constructor <;> rfl)
  case encrypt => simp only [microStep, microEncrypt]; split <;> [constructor; (split <;> constructor)] <;> rfl
  case step g => simp only [microStep, microStepGroup]; split <;> constructor <;> rfl

theorem engineStep_sameData {s t : State} (h : s.SameData t) : s.engineStep.SameData t.engineStep := by
  unfold State.engineStep
  rw [h.busy, h.cur, h.seq]
  split
  · rename_i i _ _
    have hm := microStep_sameData h i s.seq
    have hn : ((microStep i s.seq s).nextSeq).SameData ((microStep i s.seq t).nextSeq) :=
      ⟨hm.cfg, hm.sv, hm.kv, hm.gfres, hm.rcnt, hm.kcnt, hm.busy, hm.cur, congrArg (· + 1) hm.seq⟩
    unfold State.completeIfLast
    rw [hn.seq]
    split
    · exact ⟨hn.cfg, hn.sv, hn.kv, hn.gfres, hn.rcnt, hn.kcnt, rfl, rfl, hn.seq⟩
    · exact hn
  · exact h

theorem advance_sameData {s t : State} (h : s.SameData t) (n : Nat) : (s.advance n).SameData (t.advance n) := by
  induction n generalizing s t with
  | zero => exact h
  | succ n ih => exact ih (engineStep_sameData h)

/-! ### Issuing a command -/

theorem issue_busy {i : Instr} {s : State} (h : s.busy = true) : issue i s = .next (s.raiseError .busyWrite).runGrant := by
  simp [issue, h]

theorem issue_illegal {i : Instr} {s : State} (h : s.busy = false) (hw : i.wf = false) :
    issue i s = .next (s.raiseError .operandRange).runGrant := by
  simp [issue, h, hw]

theorem issue_accept {i : Instr} {s : State} (h : s.busy = false) (hw : i.wf = true) :
    issue i s = .next (s.accept i).runGrant := by
  simp [issue, h, hw]

/-- A command of one micro-step that gets its turn runs to its end at once. -/
theorem runGrant_accept_one {i : Instr} {s : State} (hn : nsteps i = 1) (hg : 1 ≤ s.grant) :
    (s.accept i).runGrant = ((microStep i 0 { s.accept i with grant := 0 }).nextSeq).complete := by
  obtain ⟨n, hn'⟩ : ∃ n, s.grant = n + 1 := ⟨s.grant - 1, by omega⟩
  have hstep : ({ s.accept i with grant := 0 } : State).engineStep =
      ((microStep i 0 { s.accept i with grant := 0 }).nextSeq).complete := by
    rw [engineStep_busy (i := i) rfl rfl, State.completeIfLast, if_pos]
    · rfl
    · rw [hn, nextSeq_seq, microStep_eq]; exact Nat.le_add_left ..
  rw [State.runGrant, accept_grant, hn', advance_succ, hstep, advance_idle rfl]

end Sys2Proof.Machine
end

