-- ==== Sys2Proof/Laws/Step.lean ====
section
/-! SUPPORT. What one step of the machine can do: the events of the outside world and their effects on the state, cited instead of unfolding the bus. -/

namespace Sys2Proof.Machine

/-- Every arm of exec issues its command. -/
theorem exec_eq_issue (i : Instr) (s : State) : exec i s = issue i s := by cases i <;> rfl

/-- Everything a host event can do to the state before the engine's micro-steps. An access acts only out of reset. -/
inductive HostEffect (s : State) : State → Prop where
  | same : HostEffect s s
  | reject (c : ErrCode) (hc : c ≠ .none) (hr : s.inReset = false) : HostEffect s (s.raiseError c)
  | accept (i : Instr) (hw : i.wf = true) (hb : s.busy = false) (hr : s.inReset = false) : HostEffect s (s.accept i)
  | status (v : Word) (hr : s.inReset = false) : HostEffect s (s.writeStatus v)
  | irqen (v : Word) (hr : s.inReset = false) : HostEffect s (s.writeIrqen v)
  | state (x : Block) (hb : s.busy = false) (hr : s.inReset = false) : HostEffect s (s.setSv x)
  | key (x : Key) (hb : s.busy = false) (hr : s.inReset = false) : HostEffect s (s.setKv x)
  | respond (v : Word) : HostEffect s (s.respond v)
  | respondFree (m : Word) : HostEffect s (s.respondFree m)
  | assertReset : HostEffect s s.assertReset
  | releaseReset : HostEffect s s.releaseReset

theorem target_reg {s : State} {a w : Nat} {r : Reg} (h : s.target a w = .reg r) : s.inReset = false := by
  unfold State.target at h
  split at h
  · cases h
  · rename_i hr; simpa using hr

/-- Decoding never answers the code NONE. -/
theorem decode_error_ne_none {w : Word} {c : ErrCode} (h : decode w = .error c) : c ≠ .none := by
  unfold decode at h
  split at h
  · cases h; simp
  · split at h
    · cases h; simp
    · split at h <;> cases h; simp

theorem decode_command_wf {w : Word} {i : Instr} (h : decode w = .command i) : i.wf = true := by
  unfold decode at h
  split at h
  · cases h
  · split at h
    · cases h
    · split at h <;> cases h; assumption

theorem ctrlWrite_effect {w : Word} {s t : State} (hr : s.inReset = false) (h : ctrlWrite w s = .next t) :
    ∃ u, HostEffect s u ∧ t = u.runGrant := by
  unfold ctrlWrite at h
  split at h
  · cases h; exact ⟨_, .reject _ (by simp) hr, rfl⟩
  · rename_i hb
    have hb : s.busy = false := by simpa using hb
    split at h
    · rename_i c hc; cases h; exact ⟨_, .reject _ (decode_error_ne_none hc) hr, rfl⟩
    · rename_i i hi
      have hw := decode_command_wf hi
      rw [exec_eq_issue, issue_accept hb hw] at h
      cases h; exact ⟨_, .accept i hw hb hr, rfl⟩

theorem writeData_effect (f : State → State) {s : State} (hr : s.inReset = false) (hf : s.busy = false → HostEffect s (f s)) :
    HostEffect s (s.writeData f) := by
  unfold State.writeData
  split
  · exact .reject _ (by simp) hr
  · rename_i hb; exact hf (by simpa using hb)

theorem busWrite_effect {r : Reg} {v : Word} {s t : State} (hr : s.inReset = false) (h : busWrite r v s = .next t) :
    ∃ u, HostEffect s u ∧ t = u.runGrant := by
  cases r <;> simp only [busWrite] at h
  case ctrl => exact ctrlWrite_effect hr h
  all_goals cases h; refine ⟨_, ?_, rfl⟩
  case status => exact .status v hr
  case irqen => exact .irqen v hr
  case progress => exact .same
  case gfres => exact .same
  case reserved => exact .same
  case stateHi => exact writeData_effect _ hr fun hb => .state _ hb hr
  case stateLo => exact writeData_effect _ hr fun hb => .state _ hb hr
  case keyHi => exact writeData_effect _ hr fun hb => .key _ hb hr
  case keyMid => exact writeData_effect _ hr fun hb => .key _ hb hr
  case keyLo => exact writeData_effect _ hr fun hb => .key _ hb hr

theorem readReg_effect (r : Reg) (s : State) : HostEffect s (s.readReg r) := by
  unfold State.readReg
  split
  · exact .respondFree _
  · exact .respond _

/-- A turn of the outside world that goes on is one host effect followed by the engine's granted micro-steps. -/
theorem performEvent_effect {e : Event} {s t : State} (h : performEvent e s = .next t) :
    ∃ u, HostEffect s u ∧ t = u.runGrant := by
  cases e <;> simp only [performEvent] at h
  case quiet => cases h; exact ⟨_, .same, rfl⟩
  case assertReset => cases h; exact ⟨_, .assertReset, rfl⟩
  case releaseReset => cases h; exact ⟨_, .releaseReset, rfl⟩
  case read a w =>
    split at h <;> cases h
    exact ⟨_, readReg_effect _ s, rfl⟩
  case write a w v =>
    split at h <;> try cases h
    exact busWrite_effect (target_reg ‹_›) h

/-- Everything a step can do: the engine's own turn, or a turn of the outside world. -/
theorem step_cases {s t : State} (h : step s = .next t) :
    configOk s.cfg = true ∧
      ((s.inputs = [] ∧ t = s.engineStep) ∨
        ∃ e n rest u, s.inputs = ⟨e, n⟩ :: rest ∧ HostEffect { s with inputs := rest, grant := n } u ∧ t = u.runGrant) := by
  unfold step at h
  split at h
  · refine ⟨‹_›, ?_⟩
    unfold nextTurn at h
    split at h
    · rename_i hi; cases h; exact .inl ⟨hi, rfl⟩
    · rename_i e rest hi
      obtain ⟨u, hu, ht⟩ := performEvent_effect h
      exact .inr ⟨e.event, e.micro, rest, u, hi, hu, ht⟩
  · cases h

/-- A turn of the outside world is performed with the rest of the turns left and its grant set. -/
theorem step_turn {s : State} {e : Event} {n : Nat} {rest : List Turn} (hc : configOk s.cfg = true) (hi : s.inputs = ⟨e, n⟩ :: rest) :
    step s = performEvent e { s with inputs := rest, grant := n } := by
  simp [step, hc, nextTurn, hi]

/-- With no turn left the engine acts alone. -/
theorem step_alone {s : State} (hc : configOk s.cfg = true) (hi : s.inputs = []) : step s = .next s.engineStep := by
  simp [step, hc, nextTurn, hi]

/-- An aligned word access inside the window, out of reset, meets the register at its offset. -/
theorem target_window {s : State} {off : Nat} (hr : s.inReset = false) (ho : off < 64) (h4 : off % 4 = 0) :
    s.target (s.cfg.ledBase + off) 4 = .reg (regAt off) := by
  unfold State.target
  rw [if_neg (by simp [hr]), if_neg (by omega), if_neg (by omega), if_neg (by omega), Nat.add_sub_cancel_left]

/-- A step whose turn is a word write to an offset of the window, out of reset. -/
theorem step_write {s : State} {off n : Nat} {v : Word} {rest : List Turn} (hc : configOk s.cfg = true) (hr : s.inReset = false)
    (ho : off < 64) (h4 : off % 4 = 0) (hi : s.inputs = ⟨.write (s.cfg.ledBase + off) 4 v, n⟩ :: rest) :
    step s = busWrite (regAt off) v { s with inputs := rest, grant := n } := by
  have htarget := target_window (s := { s with inputs := rest, grant := n }) hr ho h4
  rw [step_turn hc hi]
  simp only [performEvent, htarget]

/-- A step whose turn is a word read of an offset of the window, out of reset. -/
theorem step_read {s : State} {off n : Nat} {rest : List Turn} (hc : configOk s.cfg = true) (hr : s.inReset = false)
    (ho : off < 64) (h4 : off % 4 = 0) (hi : s.inputs = ⟨.read (s.cfg.ledBase + off) 4, n⟩ :: rest) :
    step s = .next (State.readReg (regAt off) { s with inputs := rest, grant := n }).runGrant := by
  have htarget := target_window (s := { s with inputs := rest, grant := n }) hr ho h4
  rw [step_turn hc hi]
  simp only [performEvent, htarget]

end Sys2Proof.Machine
end

