-- ==== Sys2Proof/Laws/Safety.lean ====
section
/-! SUPPORT. The invariant and the reset table: which fields of the state they read. -/

namespace Sys2Proof.Machine

/-- The reset table reads only the control state. -/
theorem State.AtResetTable.frame {s : State} (h : s.AtResetTable) (sv : Block) (kv : Key) (gfres : Nibble) (inReset : Bool)
    (inputs : List Turn) (grant : Nat) (responses : List Word) (draws : Nat) :
    ({ s with sv := sv, kv := kv, gfres := gfres, inReset := inReset, inputs := inputs, grant := grant,
              responses := responses, draws := draws } : State).AtResetTable :=
  ⟨h.busy, h.done, h.err, h.errCode, h.doneIe, h.errIe, h.rcnt, h.kcnt, h.cur, h.seq⟩

/-- The interrupt output is 0 at the reset table's values (R181). -/
theorem State.AtResetTable.irq {s : State} (h : s.AtResetTable) : s.irq = false := by
  simp [State.irq, h.done, h.err]

/-- A rise of the reset input puts the table in place (R195). -/
theorem assertReset_atResetTable {s : State} (h : s.inReset = false) : s.assertReset.AtResetTable := by
  simp only [State.assertReset, h]
  exact ⟨rfl, rfl, rfl, rfl, rfl, rfl, rfl, rfl, rfl, rfl⟩

/-- The invariant does not read the model's own fields. -/
theorem State.Inv.frame {s : State} (h : s.Inv) (inputs : List Turn) (grant : Nat) (responses : List Word) (draws : Nat) :
    ({ s with inputs := inputs, grant := grant, responses := responses, draws := draws } : State).Inv :=
  ⟨h.busy, h.running, h.progress, h.errCode, h.rcnt, h.kcnt, fun hr => (h.underReset hr).frame ..⟩

end Sys2Proof.Machine
end

