-- ==== Sys2Proof/Tests/Slice0.lean ====
section
/-! SUPPORT. Tests against the values that spec 95_test_vectors.md and the rules print, and for each statement with hypotheses a witness that meets them together. -/

namespace Sys2Proof.Tests

open Sys2Proof.Machine

/-! ### Helpers -/

/-- The message P of the vectors. -/
def msgP : Block := 0x0123456789ABCDEF#64
/-- The key K1 of the vectors. -/
def key1 : Key := 0x0123456789ABCDEF0123#80
/-- The key K2 of the vectors. -/
def key2 : Key := 0x00112233445566778899#80

/-- An idle engine under a key schedule, with turns enough for any command. -/
def idleUnder (ks : KeySchedule) (kv : Key) (sv : Block) : State :=
  { State.atReset { defaultConfig with keySchedule := ks } sv kv 0#4 with grant := 61 }

/-- The same under KS_LED_CYCLIC. -/
def idle (kv : Key) (sv : Block) : State := idleUnder .ledCyclic kv sv

/-- An engine that has just accepted a command. -/
def running (i : Instr) : State := (idle key2 msgP).accept i

/-- A state with one host turn to come. -/
def turn (e : Event) (n : Nat) (s : State) : State := { s with inputs := [⟨e, n⟩] }

/-- STATE after an outcome. -/
def svOf : Host.Outcome State Fault Refusal → Option Block
  | .next t => some t.sv
  | _ => none

/-- GFRES and STATE after an outcome. -/
def gfresOf : Host.Outcome State Fault Refusal → Option (Nibble × Block)
  | .next t => some (t.gfres, t.sv)
  | _ => none

/-- STATUS after an outcome. -/
def statusOf : Host.Outcome State Fault Refusal → Option Word
  | .next t => some t.statusWord
  | _ => none

/-- The newest value read. -/
def readOf : Host.Outcome State Fault Refusal → Option Word
  | .next t => t.responses.head?
  | _ => none

/-- STATUS after a write of w to CTRL by the host of a machine that has just come out of reset, and the engine's turns. -/
def statusAfter (w : Word) : Option Word := statusOf (step (turn (.write 0 4 w) 61 (idle key2 msgP)))

theorem config_default : configOk defaultConfig = true := by decide +kernel

/-! ### WellFormed: each check has an ill-formed term, refused by the check and, from its word, by the decoder (R77, V-ERR) -/

theorem test_wf_addkey : (Instr.addkey 13#4).wf = false ∧ decode 0x000D0002#32 = .error .operandRange := by decide
theorem test_wf_addconst : (Instr.addconst 48#6).wf = false ∧ decode 0x00003003#32 = .error .operandRange := by decide
theorem test_wf_round : (Instr.round 63#6).wf = false ∧ decode 0x00003F07#32 = .error .operandRange := by decide
theorem test_wf_step : (Instr.step 12#4).wf = false ∧ decode 0x000C0008#32 = .error .operandRange := by decide

/-! ### Decoding: the patterns of R74 with their field letters filled in, bit 31 first -/

theorem test_decode_nop : decode 0b00000000000000000000000000000000#32 = .command .nop := by decide
theorem test_decode_encrypt : decode 0b00000000000000000000000000000001#32 = .command .encrypt := by decide
theorem test_decode_addkey : decode 0b00000000000011000000000000000010#32 = .command (.addkey 12#4) := by decide
theorem test_decode_addconst : decode 0b00000000000000000010111100000011#32 = .command (.addconst 47#6) := by decide
theorem test_decode_subcells : decode 0b00000000000000000000000000000100#32 = .command .subcells := by decide
theorem test_decode_shiftrows : decode 0b00000000000000000000000000000101#32 = .command .shiftrows := by decide
theorem test_decode_mixcols : decode 0b00000000000000000000000000000110#32 = .command .mixcols := by decide
theorem test_decode_round : decode 0b00000000000000000001011100000111#32 = .command (.round 23#6) := by decide
theorem test_decode_step : decode 0b00000000000010110000000000001000#32 = .command (.step 11#4) := by decide
theorem test_decode_gfmul : decode 0b00000111100100000000000000001001#32 = .command (.gfmul 0x9#4 0x7#4) := by decide

/-- V-ERR: words with a reserved or unused bit set, each in another field. -/
theorem test_decode_reserved :
    [0x00000010#32, 0x00000104#32, 0x00010001#32, 0x00004003#32, 0x00100008#32, 0xFFF00009#32].map decode =
      List.replicate 6 (.error .reservedField) := by decide

/-- V-ERR: reserved opcodes. -/
theorem test_decode_illegal :
    [0x0000000A#32, 0x1000000A#32, 0x0000000F#32].map decode = List.replicate 3 (.error .illegalOpcode) := by decide

/-- R80, R83, V-AC and V-AK: the words the assembler emits. -/
theorem test_encode :
    encode (.addkey 5#4) = 0x00050002#32 ∧ encode (.addconst 22#6) = 0x00001603#32 ∧ encode (.round 23#6) = 0x00001707#32 ∧
    encode (.step 11#4) = 0x000B0008#32 ∧ encode (.gfmul 0x1#4 0xB#4) = 0x0B100009#32 := by decide

/-- R80: mnemonics in either case, decimal and hexadecimal operands, and an operand out of range refused. -/
theorem test_assemble :
    assemble ['a', 'd', 'd', 'k', 'e', 'y', ' ', '1', '2'] = some 0x000C0002#32 ∧
    assemble ['G', 'F', 'M', 'U', 'L', ' ', '0', 'x', '9', ',', ' ', '0', 'x', '7'] = some 0x07900009#32 ∧
    assemble ['a', 'd', 'd', 'k', 'e', 'y', ' ', '1', '3'] = none := by decide +kernel

theorem test_decodeTableWord : decodeTableWord 32 0x000B0008 = some (.step 11#4) ∧ decodeTableWord 32 0x000C0008 = none := by decide

/-! ### The tables -/

/-- R28: the default matrix is A^4, by four products with the serial matrix A. -/
theorem test_matrix :
    let a : List (List Nibble) := [[0#4, 1#4, 0#4, 0#4], [0#4, 0#4, 1#4, 0#4], [0#4, 0#4, 0#4, 1#4], [4#4, 1#4, 2#4, 2#4]]
    [0x1000000000000000#64, 0x0000100000000000#64, 0x0000000010000000#64, 0x0000000000001000#64].map (fun e =>
      mixColumns a (mixColumns a (mixColumns a (mixColumns a e)))) =
    [0x1000000000000000#64, 0x0000100000000000#64, 0x0000000010000000#64, 0x0000000000001000#64].map (mixColumns defaultMatrix) := by
  decide +kernel

/-- R29: the default constants are the generator's first 48 values. -/
theorem test_roundConstants :
    (List.range 48).all (fun r => BitVec.ofNat 6 (defaultRoundConstants.getD r 0) ==
      nextRoundConstant (if r = 0 then 0#6 else BitVec.ofNat 6 (defaultRoundConstants.getD (r - 1) 0))) = true := by decide +kernel

/-- R93: four rows of the table. -/
theorem test_gfMul_rows :
    ([2, 7, 0xB, 0xF].map fun a => (List.range 16).map fun b => (gfMul (BitVec.ofNat 4 a) (BitVec.ofNat 4 b)).toNat) =
      [[0, 2, 4, 6, 8, 0xA, 0xC, 0xE, 3, 1, 7, 5, 0xB, 9, 0xF, 0xD], [0, 7, 0xE, 9, 0xF, 8, 1, 6, 0xD, 0xA, 3, 4, 2, 5, 0xC, 0xB],
       [0, 0xB, 5, 0xE, 0xA, 1, 0xF, 4, 7, 0xC, 2, 9, 0xD, 6, 8, 3], [0, 0xF, 0xD, 2, 9, 6, 4, 0xB, 1, 0xE, 0xC, 3, 8, 7, 5, 0xA]] := by
  decide +kernel

/-- V-KS: subkeys of K1 under each schedule. -/
theorem test_subkeys :
    subkey .ledCyclic key1 3 = 0x89ABCDEF01230123#64 ∧ subkey .doc46 key1 2 = 0x4444CCCC4444CCCC#64 ∧
    subkey .doc46 key1 5 = 0x456789ABCDEF0123#64 ∧ subkey .alternate key1 12 = 0x0123456789ABCDEF#64 := by decide +kernel

/-! ### The commands (section 2 of the vectors) -/

theorem test_nop : svOf (exec .nop (idle key2 msgP)) = some msgP ∧ statusOf (exec .nop (idle key2 msgP)) = some 0x00000002#32 := by decide +kernel
theorem test_gfmul : gfresOf (exec (.gfmul 0x9#4 0x7#4) (idle key2 msgP)) = some (0xA#4, msgP) := by decide +kernel
theorem test_gfmul_reduced : gfresOf (exec (.gfmul 0x8#4 0x8#4) (idle key2 msgP)) = some (0xC#4, msgP) := by decide +kernel
theorem test_addkey : svOf (exec (.addkey 1#4) (idle key2 msgP)) = some 0x89BA4576AB9889BA#64 := by decide +kernel
theorem test_addkey_doc46 : svOf (exec (.addkey 1#4) (idleUnder .doc46 key1 msgP)) = some 0x4444CCCC4444CCCC#64 := by decide +kernel
theorem test_addconst : svOf (exec (.addconst 5#6) (idle key2 msgP)) = some 0x06235367AEABFBEF#64 := by decide +kernel
theorem test_addconst_last : svOf (exec (.addconst 47#6) (idle key2 msgP)) = some 0x01235167A9ABF9EF#64 := by decide +kernel
theorem test_subcells : svOf (exec .subcells (idle key2 msgP)) = some 0xC56B90AD3EF84712#64 := by decide +kernel
theorem test_shiftrows : svOf (exec .shiftrows (idle key2 msgP)) = some 0x01235674AB89FCDE#64 := by decide +kernel
theorem test_mixcols : svOf (exec .mixcols (idle key2 msgP)) = some 0xC963B62F428E40C8#64 := by decide +kernel
theorem test_mixcols_column : svOf (exec .mixcols (idle key2 0x1#64)) = some 0x000200060009000B#64 := by decide +kernel
theorem test_round : svOf (exec (.round 0#6) (idle key2 msgP)) = some 0x5A37350279B6595B#64 := by decide +kernel
theorem test_round_last : svOf (exec (.round 47#6) (idle key2 msgP)) = some 0x9A47D59239E6E97B#64 := by decide +kernel
theorem test_step : svOf (exec (.step 0#4) (idle key2 msgP)) = some 0x55B152829605FFF7#64 := by decide +kernel
theorem test_step_last : svOf (exec (.step 11#4) (idle key2 msgP)) = some 0x19251A6E66B930E0#64 := by decide +kernel
theorem test_encrypt : svOf (exec .encrypt (idle key2 msgP)) = some 0x2209D90C2DC534AC#64 := by decide +kernel
theorem test_encrypt_doc46 : svOf (exec .encrypt (idleUnder .doc46 key1 msgP)) = some 0x25936DC559797999#64 := by decide +kernel

/-- P1: PROGRESS after ENCRYPT reads 0x00000D30. -/
theorem test_progress :
    readOf (step (turn (.read 0x0C 4) 0 { State.atReset defaultConfig 0#64 0#80 0#4 with rcnt := 48#6, kcnt := 13#4 })) =
      some 0x00000D30#32 := by decide +kernel

/-! ### Acceptance and rejection (V-ERR, V-STS) -/

theorem test_status_idle :
    [0x00000000#32, 0x00000010#32, 0x0000000A#32, 0x1000000A#32, 0x00003003#32, 0x000D0002#32, 0x000B0008#32, 0x0FF00009#32].map statusAfter =
      [0x00000002#32, 0x00000024#32, 0x00000014#32, 0x00000014#32, 0x00000034#32, 0x00000034#32, 0x00000002#32, 0x00000002#32].map some := by
  decide +kernel

/-- V-ERR: writes while a command runs, STATUS read after it completes. -/
theorem test_status_busy :
    ([.write 0 4 0x0000000A#32, .write 0x10 4 0#32, .write 0x20 4 0#32, .write 0x04 4 0x00000006#32, .write 0x08 4 0x00000003#32].map fun e =>
      statusOf (step (turn e 1 (running .mixcols)))) =
      [0x00000046#32, 0x00000046#32, 0x00000046#32, 0x00000002#32, 0x00000102#32].map some := by decide +kernel

/-- V-STS steps 2 to 5: the first error is kept, and clearing ERR lowers the interrupt. -/
theorem test_status_sequence :
    ([.write 0 4 0x00003003#32, .write 0x04 4 0x00000002#32, .write 0x04 4 0x00000004#32].map fun e =>
      statusOf (step (turn e 0 { State.reset with errIe := true, err := true, errCode := .illegalOpcode }))) =
      [0x00000114#32, 0x00000114#32, 0x00000000#32].map some := by decide +kernel

/-- P5: the write of STATE_HI meets the engine busy (outcome A) or done (outcome B). -/
theorem test_write_while_busy :
    (statusOf (step (turn (.write 0x10 4 0xFFFFFFFF#32) 1 (running .nop))) = some 0x00000046#32 ∧
     svOf (step (turn (.write 0x10 4 0xFFFFFFFF#32) 1 (running .nop))) = some msgP) ∧
    svOf (step (turn (.write 0x10 4 0xFFFFFFFF#32) 0 (idle key2 msgP))) = some 0xFFFFFFFF89ABCDEF#64 := by decide +kernel

/-- R53, R50, R196, R26: what a step refuses. -/
theorem test_refusals :
    step (turn (.read 0x10 2) 0 State.reset) = .refused .notWordAccess ∧
    step (turn (.read 0x12 4) 0 State.reset) = .refused .misaligned ∧
    step (turn (.read 0x40 4) 0 State.reset) = .fault .outsideWindow ∧
    step (turn (.read 0x04 4) 0 { State.reset with inReset := true }) = .refused .accessDuringReset ∧
    step { State.reset with cfg := { defaultConfig with rc := [] } } = .refused .badConfiguration := by
  refine ⟨?_, ?_, ?_, ?_, ?_⟩ <;> rfl

/-- R21, R23: the worked mapping of the message bytes, and key byte 9. -/
theorem test_bytes : blockByte msgP 7 = 0xEF#8 ∧ cell msgP 1 0 = 0x4#4 ∧ keyByte key2 9 = 0x99#8 ∧ keyNibble key2 3 = 0x1#4 := by decide

/-- A host after the given schedule: its line, its variables, whether the program has ended and whether the run is at its end. -/
def hostAfter (prog : List HostLine) (schedule : List Nat) (s : State) : Option (Nat × List (Nat × Word) × Bool × Bool) :=
  match HostRun.run prog schedule { machine := s, pc := 0, vars := [] } with
  | .next h => some (h.pc, h.vars, h.ended prog, h.finished prog)
  | _ => none

/-- R82, R160: `wait_done` has ended at the read of STATUS that shows DONE, its branch still to come, and not at one that shows BUSY. -/
theorem test_wait_done :
    hostAfter (waitDone 0 1) [0, 0] { State.reset with done := true } = some (2, [(1, 0x00000002#32)], true, true) ∧
    hostAfter (waitDone 0 1) [0, 0] (running .encrypt) = some (2, [(1, 0x00000001#32)], false, false) := by decide +kernel

/-- R160: labels after the last access, and a loop without an access, do not put off the end; a busy engine does not finish the run. -/
theorem test_host_end :
    hostAfter [.lw 0x00 1, .label 0] [0] State.reset = some (1, [(1, 0#32)], true, true) ∧
    hostAfter [.lw 0x00 1, .label 0, .bne 1 0#32 1#32 0] [0, 0] State.reset = some (2, [(1, 0#32)], true, true) ∧
    hostAfter [.sw 0x00 0x00000001#32] [3] State.reset = some (1, [], true, false) := by
  refine ⟨?_, ?_, ?_⟩ <;> decide +kernel

/-! ### Witnesses: for each statement with hypotheses, a state and operands that meet all of them together -/

theorem witness_DecodeOfEncodeIsTheCommand :
    (Instr.addkey 12#4).wf = true ∧ (Instr.addconst 47#6).wf = true ∧ (Instr.round 47#6).wf = true ∧ (Instr.step 11#4).wf = true ∧
    (Instr.gfmul 15#4 15#4).wf = true ∧ Instr.encrypt.wf = true := by decide

theorem witness_EveryCommandHasExactlyOneWord : decode 0x0FF00009#32 = .command (.gfmul 15#4 15#4) := by decide

/-- Two commands of one row that both fit a word (no word fits two rows, which is the statement), and for each of the ten rows a word that fits it. -/
theorem witness_OpcodeRowsDoNotOverlap :
    (0x00050002#32 &&& (Instr.addkey 0#4).mask = (Instr.addkey 0#4).pattern ∧
      0x00050002#32 &&& (Instr.addkey 5#4).mask = (Instr.addkey 5#4).pattern) ∧
    ([(0x00000000#32, Instr.nop), (0x00000001#32, .encrypt), (0x000C0002#32, .addkey 0#4), (0x00002F03#32, .addconst 0#6), (0x00000004#32, .subcells),
      (0x00000005#32, .shiftrows), (0x00000006#32, .mixcols), (0x00002F07#32, .round 0#6), (0x000B0008#32, .step 0#4), (0x0FF00009#32, .gfmul 0#4 0#4)].all
      fun x => x.1 &&& x.2.mask == x.2.pattern) = true := by decide

theorem witness_ReservedFieldExactlyWhenAnUnusedBitIsSet :
    (opField 0x00000010#32).toNat < 10 ∧ rsv0Field 0x00000010#32 ≠ 0#4 ∧
    (opField 0x00004003#32).toNat < 10 ∧ rsv1Field 0x00004003#32 ≠ 0#2 ∧
    (opField 0xFFF00009#32).toNat < 10 ∧ rsv2Field 0xFFF00009#32 ≠ 0#4 ∧
    (opField 0x00000104#32).toNat < 10 ∧ riField 0x00000104#32 ≠ 0#6 ∧
    (opField 0x00010001#32).toNat < 10 ∧ giField 0x00010001#32 ≠ 0#4 ∧
    (opField 0x00100008#32).toNat < 10 ∧ gaField 0x00100008#32 ≠ 0#4 := by decide

/-- The words on either side of each bound (R77): ADDCONST and ROUND 47 and 48, ADDKEY 12 and 13, STEP 11 and 12. -/
theorem witness_OperandRangeExactlyBeyondTheLegalIndices :
    [0x00003003#32, 0x00003007#32, 0x000D0002#32, 0x000C0008#32].map decode = List.replicate 4 (.error .operandRange) ∧
    [0x00002F03#32, 0x00002F07#32, 0x000C0002#32, 0x000B0008#32].map decode =
      [.command (.addconst 47#6), .command (.round 47#6), .command (.addkey 12#4), .command (.step 11#4)] := by decide

theorem witness_AssemblerEmitsOnlyWordsTheDecoderTakes : assemble ['s', 't', 'e', 'p', ' ', '1', '1'] = some 0x000B0008#32 := by decide +kernel

/-- The commands that the step and exec statements are instantiated at: an idle engine, a host write of the command's word, a legal word. -/
theorem witness_StepRunsTheDecodedCommand :
    ∃ s : State, configOk s.cfg = true ∧ s.inReset = false ∧ s.busy = false ∧
      s.inputs = ⟨.write s.cfg.ledBase 4 0x000C0002#32, 61⟩ :: [] ∧ decode 0x000C0002#32 = .command (.addkey 12#4) :=
  ⟨turn (.write 0 4 0x000C0002#32) 61 (idle key2 msgP), config_default, rfl, rfl, rfl, by decide⟩

/-- Idle with a legal word, idle with a bad word, and busy. -/
theorem witness_CtrlWriteIsAcceptedOrRejectedInOrder :
    (∃ s : State, configOk s.cfg = true ∧ s.inReset = false ∧ s.busy = false ∧ s.inputs = ⟨.write s.cfg.ledBase 4 0x00000001#32, 0⟩ :: []) ∧
    (∃ s : State, configOk s.cfg = true ∧ s.inReset = false ∧ s.busy = false ∧ s.inputs = ⟨.write s.cfg.ledBase 4 0x000D0002#32, 0⟩ :: []) ∧
    (∃ s : State, configOk s.cfg = true ∧ s.inReset = false ∧ s.busy = true ∧ s.inputs = ⟨.write s.cfg.ledBase 4 0x00000001#32, 3⟩ :: []) :=
  ⟨⟨turn (.write 0 4 0x00000001#32) 0 (idle key2 msgP), config_default, rfl, rfl, rfl⟩,
   ⟨turn (.write 0 4 0x000D0002#32) 0 (idle key2 msgP), config_default, rfl, rfl, rfl⟩,
   ⟨turn (.write 0 4 0x00000001#32) 3 (running .encrypt), config_default, rfl, rfl, rfl⟩⟩

/-- A word write to any offset of the window by the host of an engine out of reset, idle or busy: the hypotheses of the statements about register writes,
their lists' first and last offsets (0x00 and 0x20, 0x04 and 0x3C, 0x0C and 0x3C, 0x08, and the five data registers) among the offsets. -/
theorem witness_register_writes (off n : Nat) (v : Word) :
    (∃ s : State, configOk s.cfg = true ∧ s.inReset = false ∧ s.busy = false ∧ s.inputs = ⟨.write (s.cfg.ledBase + off) 4 v, n⟩ :: []) ∧
    (∃ s : State, configOk s.cfg = true ∧ s.inReset = false ∧ s.busy = true ∧ s.inputs = ⟨.write (s.cfg.ledBase + off) 4 v, n⟩ :: []) :=
  ⟨⟨turn (.write (0 + off) 4 v) n (idle key2 msgP), config_default, rfl, rfl, rfl⟩,
   ⟨turn (.write (0 + off) 4 v) n (running .encrypt), config_default, rfl, rfl, rfl⟩⟩

/-- The same for word reads. -/
theorem witness_register_reads (off n : Nat) :
    (∃ s : State, configOk s.cfg = true ∧ s.inReset = false ∧ s.busy = false ∧ s.inputs = ⟨.read (s.cfg.ledBase + off) 4, n⟩ :: []) ∧
    (∃ s : State, configOk s.cfg = true ∧ s.inReset = false ∧ s.busy = true ∧ s.inputs = ⟨.read (s.cfg.ledBase + off) 4, n⟩ :: []) :=
  ⟨⟨turn (.read (0 + off) 4) n (idle key2 msgP), config_default, rfl, rfl, rfl⟩,
   ⟨turn (.read (0 + off) 4) n (running .encrypt), config_default, rfl, rfl, rfl⟩⟩

theorem witness_WritesWhileBusyAreRejectedAndOthersNever :
    (∃ s : State, configOk s.cfg = true ∧ s.inReset = false ∧ s.busy = true ∧ s.inputs = ⟨.write (s.cfg.ledBase + 0x20) 4 1#32, 2⟩ :: []) ∧
    (∃ s : State, configOk s.cfg = true ∧ s.inReset = false ∧ s.inputs = ⟨.write (s.cfg.ledBase + 0x3C) 4 1#32, 2⟩ :: []) ∧
    (∃ s : State, configOk s.cfg = true ∧ s.inReset = false ∧ s.inputs = ⟨.read (s.cfg.ledBase + 0x3C) 4, 2⟩ :: []) :=
  ⟨(witness_register_writes 0x20 2 1#32).2,
   ⟨turn (.write (0 + 0x3C) 4 1#32) 2 (idle key2 msgP), config_default, rfl, rfl⟩,
   ⟨turn (.read (0 + 0x3C) 4) 2 (idle key2 msgP), config_default, rfl, rfl⟩⟩

theorem witness_StatusWriteClearsDoneAndTheError :
    ∃ s : State, configOk s.cfg = true ∧ s.inReset = false ∧ s.inputs = ⟨.write (s.cfg.ledBase + 0x04) 4 6#32, 1⟩ :: [] :=
  ⟨turn (.write (0 + 0x04) 4 6#32) 1 (running .nop), config_default, rfl, rfl⟩

theorem witness_IrqenWriteStoresTheTwoEnables :
    ∃ s : State, configOk s.cfg = true ∧ s.inReset = false ∧ s.inputs = ⟨.write (s.cfg.ledBase + 0x08) 4 3#32, 1⟩ :: [] :=
  ⟨turn (.write (0 + 0x08) 4 3#32) 1 (running .nop), config_default, rfl, rfl⟩

theorem witness_WritesToReadOnlyAndReservedOffsetsAreIgnored :
    ∀ off ∈ [0x0C, 0x24, 0x28, 0x2C, 0x30, 0x34, 0x38, 0x3C], ∃ s : State, configOk s.cfg = true ∧ s.inReset = false ∧
      s.inputs = ⟨.write (s.cfg.ledBase + off) 4 3#32, 1⟩ :: [] :=
  fun off _ => ⟨turn (.write (0 + off) 4 3#32) 1 (running .nop), config_default, rfl, rfl⟩

theorem witness_IdleDataWritesStoreTheirField :
    ∀ off ∈ [0x10, 0x14, 0x18, 0x1C, 0x20], ∃ s : State, configOk s.cfg = true ∧ s.inReset = false ∧ s.busy = false ∧
      s.inputs = ⟨.write (s.cfg.ledBase + off) 4 3#32, 0⟩ :: [] :=
  fun off _ => (witness_register_writes off 0 3#32).1

theorem witness_IdleReadsReturnTheStoredValues :
    ∀ off ∈ [0x00, 0x08, 0x0C, 0x10, 0x14, 0x18, 0x1C, 0x20, 0x24, 0x28, 0x2C, 0x30, 0x34, 0x38, 0x3C], ∃ s : State,
      configOk s.cfg = true ∧ s.inReset = false ∧ s.busy = false ∧ s.inputs = ⟨.read (s.cfg.ledBase + off) 4, 0⟩ :: [] :=
  fun off _ => (witness_register_reads off 0).1

theorem witness_BusyReadsReturnFreeOrStoredValues :
    ∀ off ∈ [0x10, 0x14, 0x0C, 0x24, 0x18, 0x1C, 0x20, 0x08, 0x00, 0x28, 0x2C, 0x30, 0x34, 0x38, 0x3C], ∃ s : State,
      configOk s.cfg = true ∧ s.inReset = false ∧ s.busy = true ∧ s.inputs = ⟨.read (s.cfg.ledBase + off) 4, 0⟩ :: [] :=
  fun off _ => (witness_register_reads off 0).2

/-- Two reads of the last offset in a row, the engine idle. -/
theorem witness_ReadsHaveNoSideEffects :
    ∃ s : State, configOk s.cfg = true ∧ s.inReset = false ∧ s.busy = false ∧ 0x3C < 64 ∧ 0x3C % 4 = 0 ∧
      s.inputs = ⟨.read (s.cfg.ledBase + 0x3C) 4, 0⟩ :: ⟨.read (s.cfg.ledBase + 0x3C) 4, 0⟩ :: [] :=
  ⟨{ idle key2 msgP with inputs := [⟨.read 0x3C 4, 0⟩, ⟨.read 0x3C 4, 0⟩] }, config_default, rfl, rfl, by decide, by decide, rfl⟩

theorem witness_StatusReadShowsTheFlagsAndTheInterruptLevel :
    ∃ s : State, configOk s.cfg = true ∧ s.inReset = false ∧ s.inputs = ⟨.read (s.cfg.ledBase + 0x04) 4, 1⟩ :: [] :=
  ⟨turn (.read (0 + 0x04) 4) 1 (running .nop), config_default, rfl, rfl⟩

/-- A narrow access at the last byte of the window, a misaligned one, and the last aligned word. -/
theorem witness_NarrowOrMisalignedAccessesAreRefused :
    ∀ x ∈ [(63, 1), (63, 4), (60, 4)], x.1 < 64 ∧ ∃ s : State, configOk s.cfg = true ∧ s.inReset = false ∧
      s.inputs = ⟨.read (s.cfg.ledBase + x.1) x.2, 0⟩ :: [] := by
  intro x hx
  refine ⟨?_, turn (.read (0 + x.1) x.2) 0 State.reset, config_default, rfl, rfl⟩
  revert x; decide

/-- The byte below the window, and the first above it. -/
theorem witness_AccessOutsideTheWindowFaults :
    ∃ s : State, configOk s.cfg = true ∧ s.inReset = false ∧
      (63 < s.cfg.ledBase ∨ s.cfg.ledBase + 64 ≤ 63) ∧ (128 < s.cfg.ledBase ∨ s.cfg.ledBase + 64 ≤ 128) ∧
      s.inputs = ⟨.read 63 4, 0⟩ :: ⟨.write 128 4 0#32, 0⟩ :: [] :=
  ⟨{ State.reset with cfg := { defaultConfig with ledBase := 64 }, inputs := [⟨.read 63 4, 0⟩, ⟨.write 128 4 0#32, 0⟩] },
    by decide +kernel, rfl, by decide, by decide, rfl⟩

/-- A machine whose reset input is high meets the invariant. -/
theorem inv_inReset : ({ State.reset with inReset := true } : State).Inv where
  busy := rfl
  running := nofun
  progress := nofun
  errCode := by simp [State.reset, State.atReset]
  rcnt := by decide
  kcnt := by decide
  underReset := fun _ => ⟨rfl, rfl, rfl, rfl, rfl, rfl, rfl, rfl, rfl, rfl⟩

/-- A reset that meets a running command, the release after it, a rise of a high input, a fall of a low one, and a step while the input is high. -/
theorem witness_ResetInputGivesTheResetState :
    (∃ s : State, configOk s.cfg = true ∧ s.inReset = false ∧ s.busy = true ∧ s.inputs = ⟨.assertReset, 5⟩ :: []) ∧
    (∃ s : State, configOk s.cfg = true ∧ s.inReset = true ∧ s.busy = false ∧ s.inputs = ⟨.releaseReset, 5⟩ :: []) ∧
    (∃ s : State, configOk s.cfg = true ∧ s.inReset = true ∧ s.inputs = ⟨.assertReset, 5⟩ :: []) ∧
    (∃ s : State, configOk s.cfg = true ∧ s.inReset = false ∧ s.inputs = ⟨.releaseReset, 5⟩ :: []) ∧
    (∃ s t : State, configOk s.cfg = true ∧ s.inReset = true ∧ s.Inv ∧ step s = .next t) :=
  ⟨⟨turn .assertReset 5 (running .encrypt), config_default, rfl, rfl, rfl⟩,
   ⟨turn .releaseReset 5 { State.reset with inReset := true }, config_default, rfl, rfl, rfl⟩,
   ⟨turn .assertReset 5 { State.reset with inReset := true }, config_default, rfl, rfl⟩,
   ⟨turn .releaseReset 5 (running .encrypt), config_default, rfl, rfl⟩,
   ⟨{ State.reset with inReset := true }, _, config_default, rfl, inv_inReset, step_alone config_default rfl⟩⟩

theorem witness_AccessDuringResetIsRefused :
    (∃ s : State, configOk s.cfg = true ∧ s.inReset = true ∧ s.inputs = ⟨.read 4 4, 0⟩ :: []) ∧
    (∃ s : State, configOk s.cfg = true ∧ s.inReset = true ∧ s.inputs = ⟨.write 4 4 0#32, 0⟩ :: []) :=
  ⟨⟨turn (.read 4 4) 0 { State.reset with inReset := true }, config_default, rfl, rfl⟩,
   ⟨turn (.write 4 4 0#32) 0 { State.reset with inReset := true }, config_default, rfl, rfl⟩⟩

theorem witness_EngineAcceptsACommandRightAfterReset : configOk defaultConfig = true ∧ decode 0x00000001#32 = .command .encrypt :=
  ⟨config_default, by decide⟩

/-- The idle engine with exactly the turns that each command needs, and the last legal operands: the hypotheses of the ten completion statements. -/
theorem witness_completions :
    ({ idle key2 msgP with grant := 1 } : State).busy = false ∧ 1 ≤ ({ idle key2 msgP with grant := 1 } : State).grant ∧
    5 ≤ ({ idle key2 msgP with grant := 5 } : State).grant ∧ 61 ≤ (idle key2 msgP).grant ∧ (idle key2 msgP).busy = false ∧
    (12#4).toNat ≤ 12 ∧ (47#6).toNat ≤ 47 ∧ (11#4).toNat ≤ 11 := by decide

theorem witness_CommandsWhileBusyAreRejected : (running .encrypt).busy = true := rfl

theorem witness_CommandsWithIllegalOperandsAreRejected :
    (idle key2 msgP).busy = false ∧ 12 < (13#4).toNat ∧ 47 < (48#6).toNat ∧ 11 < (12#4).toNat := by decide

/-- The first and the last micro-step of STEP and of ENCRYPT, and a command of one micro-step. -/
theorem witness_MicroStepsFollowTheTable :
    ∀ x ∈ [(Instr.gfmul 9#4 7#4, 0), (.step 11#4, 3), (.step 11#4, 4), (.encrypt, 0), (.encrypt, 59), (.encrypt, 60)], ∃ s : State,
      configOk s.cfg = true ∧ s.inputs = [] ∧ s.busy = true ∧ s.cur = some x.1 ∧ s.done = false ∧ s.seq = x.2 :=
  fun x _ => ⟨{ running x.1 with seq := x.2 }, config_default, rfl, rfl, rfl, rfl, rfl⟩

/-- A command that has just been accepted meets the invariant. -/
theorem inv_running (i : Instr) (h : i.wf = true) : (running i).Inv where
  busy := rfl
  running := by
    intro j hj
    cases (Option.some.inj hj : i = j)
    refine ⟨rfl, rfl, h, ?_⟩
    cases i <;> simp [running, State.accept, nsteps]
  progress := by
    intro hj
    cases (Option.some.inj hj : i = .encrypt)
    exact ⟨rfl, rfl⟩
  errCode := by simp [running, idle, idleUnder, State.accept, State.atReset]
  rcnt := by
    have h0 : (running i).rcnt = 0#6 := by simp [running, idle, idleUnder, State.accept, State.atReset]
    rw [h0]; decide
  kcnt := by
    have h0 : (running i).kcnt = 0#4 := by simp [running, idle, idleUnder, State.accept, State.atReset]
    rw [h0]; decide
  underReset := nofun

theorem witness_EncryptCountsItsRoundsAndKeyAdditions :
    (running .encrypt).Inv ∧ configOk (running .encrypt).cfg = true ∧ (running .encrypt).inputs = [] ∧ (running .encrypt).cur = some .encrypt :=
  ⟨inv_running _ rfl, config_default, rfl, rfl⟩

theorem witness_BusyEngineCompletesAfterItsRemainingMicroSteps :
    (running (.step 11#4)).Inv ∧ configOk (running (.step 11#4)).cfg = true ∧ (running (.step 11#4)).inputs = [] ∧
    (running (.step 11#4)).cur = some (.step 11#4) ∧ 4 < nsteps (.step 11#4) - (running (.step 11#4)).seq :=
  ⟨inv_running _ rfl, config_default, rfl, rfl, by decide⟩

/-- A turn of the outside world goes on when its access is resolved. -/
theorem next_of_write {s : State} {v : Word} {n : Nat} (hc : configOk s.cfg = true) (hr : s.inReset = false) :
    ∃ t, step (turn (.write (s.cfg.ledBase + 0x04) 4 v) n s) = .next t :=
  ⟨_, step_write (s := turn (.write (s.cfg.ledBase + 0x04) 4 v) n s) hc hr (by decide) (by decide) rfl⟩

theorem witness_HostCannotDisturbARunningCommand :
    ∃ s t : State, s.busy = true ∧ s.inputs = ⟨.write 0x04 4 6#32, 7⟩ :: [] ∧ (Event.write 0x04 4 6#32) ≠ .assertReset ∧ step s = .next t := by
  obtain ⟨t, ht⟩ := next_of_write (s := running .encrypt) (v := 6#32) (n := 7) config_default rfl
  exact ⟨_, t, rfl, rfl, by decide, ht⟩

theorem witness_GrantsSplitIntoTurnsOfTheEngineAlone :
    ∃ s t : State, step { s with inputs := ⟨.write 0x04 4 6#32, 2 + 3⟩ :: [] } = .next t := by
  obtain ⟨t, ht⟩ := next_of_write (s := running .encrypt) (v := 6#32) (n := 2 + 3) config_default rfl
  exact ⟨_, t, ht⟩

/-- A running ENCRYPT, and a machine under reset. -/
theorem witness_EveryStepKeepsTheInvariant :
    (∃ s t : State, s.Inv ∧ s.busy = true ∧ step s = .next t) ∧ (∃ s t : State, s.Inv ∧ s.inReset = true ∧ step s = .next t) :=
  ⟨⟨running .encrypt, _, inv_running _ rfl, rfl, step_alone config_default rfl⟩,
   ⟨_, _, inv_inReset, rfl, step_alone config_default rfl⟩⟩

/-- The step of a reset. -/
theorem step_assertReset {s : State} {n : Nat} (hc : configOk s.cfg = true) :
    step (turn .assertReset n s) = .next (State.assertReset { s with inputs := [], grant := n }).runGrant := by
  rw [step_turn (s := turn .assertReset n s) hc rfl]; rfl

/-- The step of a word write to an offset of the window at address 0. -/
theorem step_wordWrite {s : State} {off n : Nat} {v : Word} (hc : configOk s.cfg = true) (hr : s.inReset = false) (hb : s.cfg.ledBase = 0)
    (ho : off < 64) (h4 : off % 4 = 0) : step (turn (.write off 4 v) n s) = busWrite (regAt off) v { s with inputs := [], grant := n } :=
  step_write (s := turn (.write off 4 v) n s) hc hr ho h4 (by simp [turn, hb])

/-- A host write of KEY_LO, and a reset, each changing KEY. -/
theorem witness_OnlyTheHostWritesKey :
    (∃ s t : State, step s = .next t ∧ t.kv ≠ s.kv ∧ s.busy = false ∧ s.inputs = ⟨.write (s.cfg.ledBase + 0x20) 4 1#32, 0⟩ :: []) ∧
    (∃ s t : State, step s = .next t ∧ t.kv ≠ s.kv ∧ s.inReset = false ∧ s.inputs = ⟨.assertReset, 0⟩ :: []) := by
  constructor
  · refine ⟨_, _, (step_wordWrite (s := State.reset) (off := 0x20) (n := 0) (v := 1#32) config_default rfl rfl (by decide) (by decide)).trans rfl, ?_, rfl, rfl⟩
    decide +kernel
  · refine ⟨_, _, step_assertReset (s := { State.reset with kv := Config.freeKey 0 ^^^ 1#80 }) (n := 0) config_default, ?_, rfl, rfl⟩
    intro h
    have h1 : Config.freeKey 0 = Config.freeKey 0 ^^^ 1#80 := h
    have h2 := congrArg (fun x => x.getLsbD 0) h1
    simp at h2

/-- A micro-step of ENCRYPT, a reset, and the acceptance of ENCRYPT, each changing PROGRESS. -/
theorem witness_OnlyEncryptChangesProgress :
    (∃ s t : State, step s = .next t ∧ t.kcnt ≠ s.kcnt ∧ s.cur = some .encrypt) ∧
    (∃ s t : State, step s = .next t ∧ t.rcnt ≠ s.rcnt ∧ s.inputs = ⟨.assertReset, 0⟩ :: []) ∧
    (∃ s t : State, step s = .next t ∧ t.rcnt ≠ s.rcnt ∧ s.inputs = ⟨.write s.cfg.ledBase 4 0x00000001#32, 0⟩ :: []) := by
  refine ⟨⟨running .encrypt, _, step_alone config_default rfl, by decide +kernel, rfl⟩, ?_, ?_⟩
  · refine ⟨_, _, step_assertReset (s := { State.reset with rcnt := 48#6 }) (n := 0) config_default, ?_, rfl⟩
    decide +kernel
  · refine ⟨_, _, (step_wordWrite (s := { State.reset with rcnt := 48#6 }) (off := 0) (n := 0) (v := 1#32)
      config_default rfl rfl (by decide) (by decide)).trans rfl, ?_, rfl⟩
    decide +kernel

/-- A running GFMUL, a GFMUL that is issued and completes in one turn, and a reset, each changing GFRES. -/
theorem witness_OnlyGfmulChangesGfres :
    (∃ s t : State, step s = .next t ∧ t.gfres ≠ s.gfres ∧ s.cur = some (.gfmul 9#4 7#4)) ∧
    (∃ s t : State, step s = .next t ∧ t.gfres ≠ s.gfres ∧ s.busy = false ∧ s.inputs = ⟨.write s.cfg.ledBase 4 0x07900009#32, 1⟩ :: [] ∧
      decode 0x07900009#32 = .command (.gfmul 9#4 7#4)) ∧
    (∃ s t : State, step s = .next t ∧ t.gfres ≠ s.gfres ∧ s.inputs = ⟨.assertReset, 0⟩ :: []) := by
  refine ⟨⟨running (.gfmul 9#4 7#4), _, step_alone config_default rfl, by decide +kernel, rfl⟩, ?_, ?_⟩
  · refine ⟨_, _, (step_wordWrite (s := State.reset) (off := 0) (n := 1) (v := 0x07900009#32)
      config_default rfl rfl (by decide) (by decide)).trans rfl, ?_, rfl, rfl, by decide⟩
    decide +kernel
  · refine ⟨_, _, step_assertReset (s := { State.reset with gfres := Config.freeNibble 0 ^^^ 1#4 }) (n := 0) config_default, ?_, rfl⟩
    intro h
    have h1 : Config.freeNibble 0 = Config.freeNibble 0 ^^^ 1#4 := h
    have h2 := congrArg (fun x => x.getLsbD 0) h1
    simp at h2

theorem witness_ConfigurationNeverChanges : ∃ s t : State, step s = .next t := ⟨State.reset, _, step_alone config_default rfl⟩

theorem witness_SubCellsIsABijection : sboxOk defaultSbox = true := by decide +kernel

theorem witness_CommandsComposeFromSmallerCommands :
    (idle key2 msgP).busy = false ∧ (47#6).toNat ≤ 47 ∧ (11#4).toNat ≤ 11 := by decide

end Sys2Proof.Tests
end

section
/-! PROOFS. The invariant of the control state is kept by every step (O45). -/

namespace Sys2Proof.Machine

/-! ### What a micro-step leaves unchanged -/

@[simp] theorem microStep_cur (i : Instr) (k : Nat) (s : State) : (microStep i k s).cur = s.cur := by rw [microStep_eq]
@[simp] theorem microStep_busy (i : Instr) (k : Nat) (s : State) : (microStep i k s).busy = s.busy := by rw [microStep_eq]
@[simp] theorem microStep_done (i : Instr) (k : Nat) (s : State) : (microStep i k s).done = s.done := by rw [microStep_eq]
@[simp] theorem microStep_seq (i : Instr) (k : Nat) (s : State) : (microStep i k s).seq = s.seq := by rw [microStep_eq]

/-- Every command has a micro-step (R150). -/
theorem nsteps_pos (i : Instr) : 0 < nsteps i := by cases i <;> simp [nsteps]

/-- Only ENCRYPT counts in PROGRESS (R152). -/
theorem microStep_counters_of_ne_encrypt {i : Instr} (hi : i ≠ .encrypt) (k : Nat) (s : State) :
    (microStep i k s).rcnt = s.rcnt ∧ (microStep i k s).kcnt = s.kcnt := by
  cases i <;> try exact ⟨rfl, rfl⟩
  case encrypt => exact absurd rfl hi
  case step g => simp only [microStep, microStepGroup]; split <;> exact ⟨rfl, rfl⟩

/-- PROGRESS holds the counts of the first k micro-steps of ENCRYPT (R152). -/
def State.CountsAt (k : Nat) (s : State) : Prop :=
  s.rcnt.toNat = roundsBefore k ∧ s.kcnt.toNat = keysBefore k

/-- Micro-step k of ENCRYPT moves PROGRESS from the counts before it to the counts after it (R150, R152). -/
theorem microStep_encrypt_countsAt {k : Nat} {s : State} (hk : k < 61) (h : s.CountsAt k) :
    (microStep .encrypt k s).CountsAt (k + 1) := by
  obtain ⟨hr, hc⟩ := h
  simp only [State.CountsAt, microStep, microEncrypt, roundsBefore, keysBefore] at *
  split
  · subst k; simp [BitVec.toNat_add, hr, hc]
  · split <;> simp [BitVec.toNat_add, hr, hc] <;> omega

/-- The counters of a micro-step of a command in flight: ENCRYPT advances its position, the others leave PROGRESS alone. -/
theorem State.Inv.microStep_counters {s : State} {i : Instr} (h : s.Inv) (hc : s.cur = some i) :
    (i = .encrypt → (microStep i s.seq s).CountsAt (s.seq + 1)) ∧
      (microStep i s.seq s).rcnt.toNat ≤ 48 ∧ (microStep i s.seq s).kcnt.toNat ≤ 13 := by
  obtain ⟨-, -, -, hseq⟩ := h.running i hc
  by_cases hi : i = .encrypt
  · subst hi
    have hseq : s.seq < 61 := hseq
    have hcounts := microStep_encrypt_countsAt hseq (h.progress hc)
    refine ⟨fun _ => hcounts, ?_⟩
    rw [hcounts.1, hcounts.2, roundsBefore, keysBefore]
    omega
  · obtain ⟨hr, hk⟩ := microStep_counters_of_ne_encrypt hi s.seq s
    exact ⟨fun he => absurd he hi, hr ▸ h.rcnt, hk ▸ h.kcnt⟩

/-! ### The engine's turns keep the invariant -/

theorem State.Inv.engineStep {s : State} (h : s.Inv) : s.engineStep.Inv := by
  cases hb : s.busy with
  | false => rwa [engineStep_idle hb]
  | true =>
    obtain ⟨i, hc⟩ := Option.isSome_iff_exists.mp (h.busy ▸ hb)
    obtain ⟨hdone, hreset, hwf, hseq⟩ := h.running i hc
    obtain ⟨hcounts, hrcnt, hkcnt⟩ := h.microStep_counters hc
    have hout := engineStep_sameOutside s
    have herr : s.engineStep.errCode ≠ .none ↔ s.engineStep.err = true := by rw [hout.errCode, hout.err]; exact h.errCode
    have hnoReset : s.engineStep.inReset = true → s.engineStep.AtResetTable := by simp [hout.inReset, hreset]
    by_cases hlast : nsteps i ≤ s.seq + 1
    · rw [engineStep_last hb hc hlast] at *
      exact ⟨rfl, by simp, by simp, herr, hrcnt, hkcnt, hnoReset⟩
    · rw [engineStep_middle hb hc (by omega)] at *
      refine ⟨by simp [hb, hc], ?_, ?_, herr, hrcnt, hkcnt, hnoReset⟩
      · intro j hj
        obtain rfl : i = j := by simpa [hc] using hj
        exact ⟨by simpa using hdone, hout.inReset.trans hreset, hwf, by simp; omega⟩
      · intro hj
        have hi : i = .encrypt := by simpa [hc] using hj
        simpa [State.CountsAt] using hcounts hi

theorem State.Inv.advance {s : State} (h : s.Inv) (n : Nat) : (s.advance n).Inv := by
  induction n generalizing s with
  | zero => exact h
  | succ n ih => exact ih h.engineStep

theorem State.Inv.runGrant {s : State} (h : s.Inv) : s.runGrant.Inv :=
  (h.frame s.inputs 0 s.responses s.draws).advance s.grant

/-! ### The outside world keeps the invariant -/

/-- The values of the reset table meet the invariant (R195). -/
theorem State.AtResetTable.inv {s : State} (h : s.AtResetTable) : s.Inv where
  busy := by simp [h.busy, h.cur]
  running := by simp [h.cur]
  progress := by simp [h.cur]
  errCode := by simp [h.errCode, h.err]
  rcnt := by simp [h.rcnt]
  kcnt := by simp [h.kcnt]
  underReset _ := h

/-- Every event of the outside world keeps the invariant. -/
theorem HostEffect.inv {s u : State} (hu : HostEffect s u) (h : s.Inv) : u.Inv := by
  cases hu with
  | same => exact h
  | reject c hc hr =>
    refine ⟨h.busy, h.running, h.progress, ?_, h.rcnt, h.kcnt, by simp [hr]⟩
    cases he : s.err <;> simp [he, hc, h.errCode]
  | accept i hw hb hr =>
    refine ⟨rfl, ?_, ?_, h.errCode, ?_, ?_, by simp [hr]⟩
    · rintro j ⟨⟩
      exact ⟨rfl, hr, hw, nsteps_pos i⟩
    · rintro ⟨⟩
      simp [roundsBefore, keysBefore]
    · have := h.rcnt; rw [accept_rcnt]; split <;> simp [*]
    · have := h.kcnt; rw [accept_kcnt]; split <;> simp [*]
  | status v hr =>
    refine ⟨h.busy, fun i hi => ?_, h.progress, ?_, h.rcnt, h.kcnt, by simp [hr]⟩
    · obtain ⟨hdone, hrest⟩ := h.running i hi
      exact ⟨by simp [hdone], hrest⟩
    · rw [writeStatus_errCode, writeStatus_err]
      split
      · simp
      · exact h.errCode
  | irqen v hr => exact ⟨h.busy, h.running, h.progress, h.errCode, h.rcnt, h.kcnt, by simp [hr]⟩
  | state x hb hr => exact ⟨h.busy, h.running, h.progress, h.errCode, h.rcnt, h.kcnt, by simp [hr]⟩
  | key x hb hr => exact ⟨h.busy, h.running, h.progress, h.errCode, h.rcnt, h.kcnt, by simp [hr]⟩
  | respond v => exact h.frame s.inputs s.grant (v :: s.responses) s.draws
  | respondFree m => exact h.frame s.inputs s.grant ((Config.freeWord s.draws &&& m) :: s.responses) (s.draws + 1)
  | assertReset =>
    cases hr : s.inReset with
    | false => exact (assertReset_atResetTable hr).inv
    | true => rwa [State.assertReset, if_pos hr]
  | releaseReset =>
    refine ⟨h.busy, fun i hi => ?_, h.progress, h.errCode, h.rcnt, h.kcnt, by simp⟩
    obtain ⟨hdone, -, hrest⟩ := h.running i hi
    exact ⟨hdone, rfl, hrest⟩

/-- Settles O45: the invariant is kept by each event of the outside world and by each of the engine's micro-steps. -/
theorem everyStepKeepsTheInvariant : Obligations.EveryStepKeepsTheInvariant := by
  unfold Obligations.EveryStepKeepsTheInvariant
  intro s t h hstep
  obtain ⟨-, ⟨-, rfl⟩ | ⟨e, n, rest, u, -, hu, rfl⟩⟩ := step_cases hstep
  · exact h.engineStep
  · exact (hu.inv (h.frame rest n s.responses s.draws)).runGrant

end Sys2Proof.Machine
end

section
/-! PROOFS. Which turn of the outside world and which command can change KEY, PROGRESS and GFRES (O47, O48, O49), and that nothing changes the configuration (O50). -/

namespace Sys2Proof.Machine

/-! ### The event behind a change of the state -/

/-- What the event e can do to the registers before the engine's micro-steps: `HostEffect` with the event that each change needs.
An event of the first kind leaves KEY, GFRES, PROGRESS and the command alone. -/
inductive EventEffect (s : State) : Event → State → Prop where
  | keep {e : Event} {u : State} (hkv : u.kv = s.kv) (hgfres : u.gfres = s.gfres) (hrcnt : u.rcnt = s.rcnt) (hkcnt : u.kcnt = s.kcnt)
      (hcur : u.cur = s.cur) : EventEffect s e u
  | assertReset (hr : s.inReset = false) : EventEffect s .assertReset s.assertReset
  | accept {w : Word} {i : Instr} (hb : s.busy = false) (hd : decode w = .command i) :
      EventEffect s (.write s.cfg.ledBase 4 w) (s.accept i)
  | key {off : Nat} {v : Word} (x : Key) (hb : s.busy = false) (ho : off ∈ [0x18, 0x1C, 0x20]) :
      EventEffect s (.write (s.cfg.ledBase + off) 4 v) (s.setKv x)

/-- An access that meets a register is a word access at that register's offset. -/
theorem target_reg_offset {s : State} {a w : Nat} {r : Reg} (h : s.target a w = .reg r) :
    w = 4 ∧ ∃ off, a = s.cfg.ledBase + off ∧ regAt off = r := by
  unfold State.target at h
  repeat' split at h
  all_goals cases h
  exact ⟨by omega, a - s.cfg.ledBase, by omega, rfl⟩

theorem regAt_eq_ctrl {off : Nat} (h : regAt off = .ctrl) : off = 0x00 := by
  unfold regAt at h; split at h <;> simp_all

theorem regAt_eq_key {off : Nat} (h : regAt off = .keyHi ∨ regAt off = .keyMid ∨ regAt off = .keyLo) : off ∈ [0x18, 0x1C, 0x20] := by
  unfold regAt at h; split at h <;> simp_all

theorem raiseError_eventEffect (e : Event) (c : ErrCode) (s : State) : EventEffect s e (s.raiseError c) :=
  .keep rfl rfl rfl rfl rfl

theorem ctrlWrite_eventEffect {w : Word} {s t : State} (h : ctrlWrite w s = .next t) :
    ∃ u, EventEffect s (.write s.cfg.ledBase 4 w) u ∧ t = u.runGrant := by
  unfold ctrlWrite at h
  split at h
  · cases h; exact ⟨_, raiseError_eventEffect .., rfl⟩
  · rename_i hb
    have hb : s.busy = false := by simpa using hb
    split at h
    · cases h; exact ⟨_, raiseError_eventEffect .., rfl⟩
    · rename_i i hd
      rw [exec_eq_issue, issue_accept hb (decode_command_wf hd)] at h
      cases h; exact ⟨_, .accept hb hd, rfl⟩

/-- A write of STATE keeps the other registers, stored or rejected. -/
theorem writeData_setSv_eventEffect (e : Event) (s : State) (f : State → Block) :
    EventEffect s e (s.writeData fun t => t.setSv (f t)) := by
  unfold State.writeData
  split <;> exact .keep rfl rfl rfl rfl rfl

theorem writeData_setKv_eventEffect {off : Nat} {v : Word} (s : State) (f : State → Key) (ho : off ∈ [0x18, 0x1C, 0x20]) :
    EventEffect s (.write (s.cfg.ledBase + off) 4 v) (s.writeData fun t => t.setKv (f t)) := by
  unfold State.writeData
  split
  · exact .keep rfl rfl rfl rfl rfl
  · exact .key _ (by simp_all) ho

theorem busWrite_eventEffect {off : Nat} {v : Word} {s t : State} (h : busWrite (regAt off) v s = .next t) :
    ∃ u, EventEffect s (.write (s.cfg.ledBase + off) 4 v) u ∧ t = u.runGrant := by
  cases hr : regAt off <;> rw [hr] at h
  case ctrl => rw [regAt_eq_ctrl hr]; exact ctrlWrite_eventEffect h
  all_goals cases h; refine ⟨_, ?_, rfl⟩
  case stateHi => exact writeData_setSv_eventEffect _ s fun t => withStateHi t.sv v
  case stateLo => exact writeData_setSv_eventEffect _ s fun t => withStateLo t.sv v
  case keyHi => exact writeData_setKv_eventEffect s (fun t => withKeyHi t.kv v) (regAt_eq_key (by simp [hr]))
  case keyMid => exact writeData_setKv_eventEffect s (fun t => withKeyMid t.kv v) (regAt_eq_key (by simp [hr]))
  case keyLo => exact writeData_setKv_eventEffect s (fun t => withKeyLo t.kv v) (regAt_eq_key (by simp [hr]))
  all_goals exact .keep rfl rfl rfl rfl rfl

theorem readReg_eventEffect (e : Event) (r : Reg) (s : State) : EventEffect s e (s.readReg r) := by
  unfold State.readReg
  split <;> exact .keep rfl rfl rfl rfl rfl

theorem assertReset_eventEffect (s : State) : EventEffect s .assertReset s.assertReset := by
  cases hr : s.inReset with
  | false => exact .assertReset hr
  | true => rw [State.assertReset, if_pos hr]; exact .keep rfl rfl rfl rfl rfl

theorem performEvent_eventEffect {e : Event} {s t : State} (h : performEvent e s = .next t) :
    ∃ u, EventEffect s e u ∧ t = u.runGrant := by
  cases e <;> simp only [performEvent] at h
  case quiet => cases h; exact ⟨_, .keep rfl rfl rfl rfl rfl, rfl⟩
  case assertReset => cases h; exact ⟨_, assertReset_eventEffect s, rfl⟩
  case releaseReset => cases h; exact ⟨s.releaseReset, .keep rfl rfl rfl rfl rfl, rfl⟩
  case read a w =>
    split at h <;> cases h
    exact ⟨_, readReg_eventEffect _ _ s, rfl⟩
  case write a w v =>
    split at h <;> try cases h
    rename_i r htarget
    obtain ⟨rfl, off, rfl, rfl⟩ := target_reg_offset htarget
    exact busWrite_eventEffect h

/-- Everything a step can do to the registers, with the turn that it needs. -/
theorem step_eventEffect {s t : State} (h : step s = .next t) :
    (s.inputs = [] ∧ t = s.engineStep) ∨
      ∃ e n rest u, s.inputs = ⟨e, n⟩ :: rest ∧ EventEffect { s with inputs := rest, grant := n } e u ∧ t = u.runGrant := by
  obtain ⟨hc, ⟨hi, ht⟩ | ⟨e, n, rest, -, hi, -⟩⟩ := step_cases h
  · exact .inl ⟨hi, ht⟩
  · rw [step_turn hc hi] at h
    obtain ⟨u, hu, ht⟩ := performEvent_eventEffect h
    exact .inr ⟨e, n, rest, u, hi, hu, ht⟩

/-! ### What the engine's own turns can change -/

/-- A turn of the engine keeps its command or completes it. -/
theorem engineStep_cur (s : State) : s.engineStep.cur = s.cur ∨ s.engineStep.cur = none := by
  unfold State.engineStep
  split
  · unfold State.completeIfLast
    split
    · exact .inr rfl
    · exact .inl (by simp)
  · exact .inl rfl

/-- The data registers and PROGRESS after a turn of the engine are those that its micro-step leaves, if it takes one. -/
theorem engineStep_eq_self_or_micro (s : State) :
    s.engineStep = s ∨ ∃ i, s.cur = some i ∧ s.engineStep.gfres = (microStep i s.seq s).gfres ∧
      s.engineStep.rcnt = (microStep i s.seq s).rcnt ∧ s.engineStep.kcnt = (microStep i s.seq s).kcnt := by
  unfold State.engineStep
  split
  · rename_i i _ hc
    refine .inr ⟨i, hc, ?_⟩
    unfold State.completeIfLast
    split <;> exact ⟨rfl, rfl, rfl⟩
  · exact .inl rfl

/-- The micro-step of GFMUL sets GFRES to its product, and no other micro-step writes GFRES (R92). -/
theorem microStep_gfres (i : Instr) (k : Nat) (s : State) :
    (microStep i k s).gfres = s.gfres ∨ ∃ a b, i = .gfmul a b ∧ (microStep i k s).gfres = gfMul a b := by
  cases i <;> try exact .inl rfl
  case encrypt => left; simp only [microStep, microEncrypt]; split <;> [rfl; (split <;> rfl)]
  case step g => left; simp only [microStep, microStepGroup]; split <;> rfl
  case gfmul a b => exact .inr ⟨a, b, rfl, rfl⟩

theorem engineStep_counters {s : State} (h : s.cur ≠ some .encrypt) :
    s.engineStep.rcnt = s.rcnt ∧ s.engineStep.kcnt = s.kcnt := by
  obtain heq | ⟨i, hc, -, hrcnt, hkcnt⟩ := engineStep_eq_self_or_micro s
  · rw [heq]; exact ⟨rfl, rfl⟩
  · rw [hrcnt, hkcnt]
    exact microStep_counters_of_ne_encrypt (fun hi => h (hi ▸ hc)) s.seq s

theorem advance_counters {s : State} (h : s.cur ≠ some .encrypt) (n : Nat) :
    (s.advance n).rcnt = s.rcnt ∧ (s.advance n).kcnt = s.kcnt := by
  induction n generalizing s with
  | zero => exact ⟨rfl, rfl⟩
  | succ n ih =>
    have hcur : s.engineStep.cur ≠ some .encrypt := by
      obtain hc | hc := engineStep_cur s <;> simp [hc, h]
    obtain ⟨hr, hk⟩ := ih hcur
    obtain ⟨hr', hk'⟩ := engineStep_counters h
    exact ⟨hr.trans hr', hk.trans hk'⟩

/-- The engine's granted micro-steps count in PROGRESS only for ENCRYPT (R152). -/
theorem runGrant_counters {s : State} (h : s.cur ≠ some .encrypt) : s.runGrant.rcnt = s.rcnt ∧ s.runGrant.kcnt = s.kcnt :=
  advance_counters (s := { s with grant := 0 }) h s.grant

theorem engineStep_gfres (s : State) :
    s.engineStep.gfres = s.gfres ∨ ∃ a b, s.cur = some (.gfmul a b) ∧ s.engineStep.gfres = gfMul a b := by
  obtain heq | ⟨i, hc, hgfres, -⟩ := engineStep_eq_self_or_micro s
  · exact .inl (by rw [heq])
  · rw [hgfres]
    obtain hsame | ⟨a, b, rfl, hprod⟩ := microStep_gfres i s.seq s
    · exact .inl hsame
    · exact .inr ⟨a, b, hc, hprod⟩

theorem advance_gfres (s : State) (n : Nat) :
    (s.advance n).gfres = s.gfres ∨ ∃ a b, s.cur = some (.gfmul a b) ∧ (s.advance n).gfres = gfMul a b := by
  induction n generalizing s with
  | zero => exact .inl rfl
  | succ n ih =>
    rw [advance_succ]
    obtain hlater | ⟨a, b, hc, hprod⟩ := ih s.engineStep
    · rw [hlater]; exact engineStep_gfres s
    · have hcur : s.cur = some (.gfmul a b) := by
        obtain h | h := engineStep_cur s
        · exact h ▸ hc
        · simp [h] at hc
      exact .inr ⟨a, b, hcur, hprod⟩

/-- The engine's granted micro-steps write GFRES only for GFMUL, with its product (R34, R92). -/
theorem runGrant_gfres (s : State) :
    s.runGrant.gfres = s.gfres ∨ ∃ a b, s.cur = some (.gfmul a b) ∧ s.runGrant.gfres = gfMul a b :=
  advance_gfres { s with grant := 0 } s.grant

/-! ### The rules of the whole machine -/

/-- Settles O47: no turn of the engine writes KEY, and of the outside world only a rise of reset or a write of a KEY register does. -/
theorem onlyTheHostWritesKey : Obligations.OnlyTheHostWritesKey := by
  unfold Obligations.OnlyTheHostWritesKey
  intro s t hstep hne
  obtain ⟨-, rfl⟩ | ⟨e, n, rest, u, hi, hu, rfl⟩ := step_eventEffect hstep
  · exact absurd (engineStep_sameOutside s).kv hne
  · rw [(runGrant_sameOutside u).kv] at hne
    cases hu with
    | keep hkv => exact absurd hkv hne
    | assertReset hr => exact .inl ⟨hr, n, rest, hi⟩
    | accept => exact absurd rfl hne
    | key x hb ho => exact .inr ⟨hb, _, _, n, rest, ho, hi⟩

/-- The one word of ENCRYPT (R74). -/
theorem eq_one_of_decode_encrypt {w : Word} (h : decode w = .command .encrypt) : w = 0x00000001#32 := by
  unfold decode at h
  split at h
  · cases h
  · rename_i i _
    split at h
    · cases h
    · rename_i hrow
      split at h <;> cases h
      have hones : w &&& 0xFFFFFFFF#32 = w := BitVec.and_allOnes
      simpa [Instr.mask, Instr.pattern, hones] using hrow

/-- Settles O48: PROGRESS moves only in a reset, in the micro-steps of ENCRYPT and in its acceptance. -/
theorem onlyEncryptChangesProgress : Obligations.OnlyEncryptChangesProgress := by
  unfold Obligations.OnlyEncryptChangesProgress
  intro s t hstep hne
  by_contra hnot
  obtain ⟨hcur, hreset, hword⟩ : s.cur ≠ some .encrypt ∧ _ ∧ _ := by simpa only [not_or] using hnot
  obtain ⟨-, rfl⟩ | ⟨e, n, rest, u, hi, hu, rfl⟩ := step_eventEffect hstep
  · obtain ⟨hr, hk⟩ := engineStep_counters hcur
    simp [hr, hk] at hne
  · have hu' : u.cur ≠ some .encrypt ∧ u.rcnt = s.rcnt ∧ u.kcnt = s.kcnt := by
      cases hu with
      | keep _ _ hrcnt hkcnt hc => exact ⟨hc ▸ hcur, hrcnt, hkcnt⟩
      | assertReset => exact absurd ⟨n, rest, hi⟩ hreset
      | @accept w i hb hd =>
        have hne : i ≠ .encrypt := by
          rintro rfl
          exact hword ⟨hb, n, rest, eq_one_of_decode_encrypt hd ▸ hi⟩
        simp [hne]
      | key => exact ⟨hcur, rfl, rfl⟩
    obtain ⟨hcur', hrcnt, hkcnt⟩ := hu'
    obtain ⟨hr, hk⟩ := runGrant_counters hcur'
    simp [hr, hk, hrcnt, hkcnt] at hne

/-- Settles O49: GFRES is written only in a reset and in the micro-step of a GFMUL in flight or just accepted. -/
theorem onlyGfmulChangesGfres : Obligations.OnlyGfmulChangesGfres := by
  unfold Obligations.OnlyGfmulChangesGfres
  intro s t hstep hne
  obtain ⟨-, rfl⟩ | ⟨e, n, rest, u, hi, hu, rfl⟩ := step_eventEffect hstep
  · obtain hsame | ⟨a, b, hc, hprod⟩ := engineStep_gfres s
    · exact absurd hsame hne
    · exact .inr ⟨a, b, hprod, .inl hc⟩
  · obtain hsame | ⟨a, b, hc, hprod⟩ := runGrant_gfres u
    · rw [hsame] at hne
      cases hu with
      | keep _ hgfres => exact absurd hgfres hne
      | assertReset => exact .inl ⟨n, rest, hi⟩
      | accept => exact absurd rfl hne
      | key => exact absurd rfl hne
    · cases hu with
      | keep _ _ _ _ hcur => exact .inr ⟨a, b, hprod, .inl (hcur ▸ hc)⟩
      | assertReset => exact .inl ⟨n, rest, hi⟩
      | @accept w i hb hd =>
        obtain rfl : i = .gfmul a b := by simpa using hc
        exact .inr ⟨a, b, hprod, .inr ⟨hb, w, n, rest, hi, hd⟩⟩
      | key => exact .inr ⟨a, b, hprod, .inl hc⟩

/-! ### The configuration -/

theorem HostEffect.cfg {s u : State} (hu : HostEffect s u) : u.cfg = s.cfg := by
  cases hu <;> try rfl
  case assertReset => unfold State.assertReset; split <;> rfl

/-- Settles O50: neither an event of the outside world nor the engine writes the configuration. -/
theorem configurationNeverChanges : Obligations.ConfigurationNeverChanges := by
  unfold Obligations.ConfigurationNeverChanges
  intro s t hstep
  obtain ⟨-, ⟨-, rfl⟩ | ⟨e, n, rest, u, -, hu, rfl⟩⟩ := step_cases hstep
  · exact (engineStep_sameOutside s).cfg
  · exact (runGrant_sameOutside u).cfg.trans hu.cfg

end Sys2Proof.Machine
end

section
/-! PROOFS. The registers of the window as the host reads and writes them (O12 to O17, O19). -/

namespace Sys2Proof.Machine

/-! ### Writes -/

/-- Settles O12: a STATUS write is taken whether the engine is busy or not. -/
theorem statusWriteClearsDoneAndTheError : Obligations.StatusWriteClearsDoneAndTheError := by
  unfold Obligations.StatusWriteClearsDoneAndTheError
  intro s v n rest hc hr hi
  rw [step_write hc hr (by decide) (by decide) hi]
  rfl

/-- Settles O13: an IRQEN write is taken whether the engine is busy or not. -/
theorem irqenWriteStoresTheTwoEnables : Obligations.IrqenWriteStoresTheTwoEnables := by
  unfold Obligations.IrqenWriteStoresTheTwoEnables
  intro s v n rest hc hr hi
  rw [step_write hc hr (by decide) (by decide) hi]
  rfl

/-- A write of a register that the host cannot change does nothing before the engine's micro-steps (R33, R34, R35). -/
theorem busWrite_ignored {r : Reg} (h : r ∈ [Reg.progress, .gfres, .reserved]) (v : Word) (s : State) :
    busWrite r v s = .next s.runGrant := by
  fin_cases h <;> rfl

/-- Settles O14: each of these offsets holds PROGRESS, GFRES or nothing, and is aligned inside the window. -/
theorem writesToReadOnlyAndReservedOffsetsAreIgnored : Obligations.WritesToReadOnlyAndReservedOffsetsAreIgnored := by
  unfold Obligations.WritesToReadOnlyAndReservedOffsetsAreIgnored
  intro s off v n rest hc hr hoff hi
  have hmap : ∀ off ∈ [0x0C, 0x24, 0x28, 0x2C, 0x30, 0x34, 0x38, 0x3C],
      off < 64 ∧ off % 4 = 0 ∧ regAt off ∈ [Reg.progress, .gfres, .reserved] := by decide
  obtain ⟨hlt, halign, hreg⟩ := hmap off hoff
  rw [step_write hc hr hlt halign hi, busWrite_ignored hreg]

/-- An idle engine with no granted micro-step stores a write of a data register and does nothing else. -/
theorem step_writeData {s : State} {off : Nat} {v : Word} {rest : List Turn} {f : State → State} (hc : configOk s.cfg = true)
    (hr : s.inReset = false) (hb : s.busy = false) (ho : off < 64) (h4 : off % 4 = 0)
    (hi : s.inputs = ⟨.write (s.cfg.ledBase + off) 4 v, 0⟩ :: rest)
    (hw : ∀ t, busWrite (regAt off) v t = .next (t.writeData f).runGrant) (hf : ∀ t, (f t).grant = t.grant) :
    step s = .next (f { s with inputs := rest, grant := 0 }) := by
  rw [step_write hc hr ho h4 hi, hw, State.writeData, if_neg (by simp [hb]), runGrant_zero (hf _)]

/-- Settles O15: each data register's write, under `step_writeData`, replaces its slice of SV or KV. -/
theorem idleDataWritesStoreTheirField : Obligations.IdleDataWritesStoreTheirField := by
  unfold Obligations.IdleDataWritesStoreTheirField
  intro s v rest hc hr hb
  refine ⟨fun hi => ?_, fun hi => ?_, fun hi => ?_, fun hi => ?_, fun hi => ?_⟩ <;>
    exact step_writeData hc hr hb (by decide) (by decide) hi (fun _ => rfl) (fun _ => rfl)

/-! ### Reads -/

/-- A read of an idle engine, or of a register with no unspecified bits, answers the word that the register holds (R22, R25, R33, R34). -/
theorem step_read_stored {s : State} {off n : Nat} {rest : List Turn} (hc : configOk s.cfg = true) (hr : s.inReset = false)
    (ho : off < 64) (h4 : off % 4 = 0) (hi : s.inputs = ⟨.read (s.cfg.ledBase + off) 4, n⟩ :: rest)
    (hstored : s.busy = false ∨ busyFreeBits (regAt off) = none) :
    step s = .next (State.runGrant
      { s with inputs := rest, grant := n, responses := s.regWord (regAt off) :: s.responses }) := by
  have hread : ∀ t : State, t.busy = s.busy → t.readReg (regAt off) = t.respond (t.regWord (regAt off)) := by
    intro t ht
    obtain hb | hnone := hstored
    · simp [State.readReg, ht, hb]
    · simp [State.readReg, hnone]
  have hframe : ∀ r, State.regWord { s with inputs := rest, grant := n } r = s.regWord r := fun r => by cases r <;> rfl
  rw [step_read hc hr ho h4 hi, hread _ (by rfl), hframe]
  rfl

/-- A read of a busy engine answers a free value in the unspecified bits of the register (R22, R33, R34). -/
theorem step_read_free {s : State} {off n : Nat} {m : Word} {rest : List Turn} (hc : configOk s.cfg = true) (hr : s.inReset = false)
    (ho : off < 64) (h4 : off % 4 = 0) (hi : s.inputs = ⟨.read (s.cfg.ledBase + off) 4, n⟩ :: rest)
    (hb : s.busy = true) (hfree : busyFreeBits (regAt off) = some m) :
    step s = .next (State.runGrant
      { s with inputs := rest, grant := n, responses := (Config.freeWord s.draws &&& m) :: s.responses, draws := s.draws + 1 }) := by
  rw [step_read hc hr ho h4 hi, State.readReg, hb, hfree]
  rfl

/-- KEY_LO reads KV[15:0] under 16 zero bits (R23). -/
theorem keyLo_eq_append (kv : Key) : keyLo kv = 0#16 ++ kv.extractLsb' 0 16 := by
  simp [keyLo, BitVec.setWidth_eq_append]

/-- Settles O16: an idle engine answers each register's word, and makes nothing of its grant. -/
theorem idleReadsReturnTheStoredValues : Obligations.IdleReadsReturnTheStoredValues := by
  unfold Obligations.IdleReadsReturnTheStoredValues
  intro s off n rest hc hr hb hoff hi
  have ⟨hlt, halign⟩ : off < 64 ∧ off % 4 = 0 := by clear hi; fin_cases hoff <;> decide
  rw [step_read_stored hc hr hlt halign hi (.inl hb), runGrant_idle (by exact hb)]
  congr 3
  clear hi hlt halign
  fin_cases hoff <;>
    simp [regAt, State.regWord, State.irqenWord, State.progressWord, stateHi, stateLo, keyHi, keyMid, keyLo_eq_append, State.gfresWord]

/-- Settles O17: STATE, PROGRESS and GFRES have unspecified bits while busy, the other registers none. -/
theorem busyReadsReturnFreeOrStoredValues : Obligations.BusyReadsReturnFreeOrStoredValues := by
  unfold Obligations.BusyReadsReturnFreeOrStoredValues
  intro s off n rest hc hr hb hi
  have hones : ∀ w : Word, w &&& 0xFFFFFFFF#32 = w := fun w => BitVec.and_allOnes
  refine ⟨fun ho => ?_, ?_, ?_, fun ho => ?_, ?_, fun ho => ?_⟩
  · have ⟨hlt, halign, hfree⟩ : off < 64 ∧ off % 4 = 0 ∧ busyFreeBits (regAt off) = some 0xFFFFFFFF#32 := by
      clear hi; fin_cases ho <;> decide
    rw [step_read_free hc hr hlt halign hi hb hfree, hones]
  · rintro rfl
    exact step_read_free hc hr (by decide) (by decide) hi hb rfl
  · rintro rfl
    exact step_read_free hc hr (by decide) (by decide) hi hb rfl
  · have ⟨hlt, halign, hnone⟩ : off < 64 ∧ off % 4 = 0 ∧ busyFreeBits (regAt off) = none := by
      clear hi; fin_cases ho <;> decide
    rw [step_read_stored hc hr hlt halign hi (.inr hnone)]
    congr 4
    clear hi hlt halign hnone
    fin_cases ho <;> simp [regAt, State.regWord, keyHi, keyMid, keyLo_eq_append]
  · rintro rfl
    exact step_read_stored hc hr (by decide) (by decide) hi (.inr rfl)
  · have ⟨hlt, halign, hnone, hzero⟩ :
        off < 64 ∧ off % 4 = 0 ∧ busyFreeBits (regAt off) = none ∧ s.regWord (regAt off) = 0#32 := by
      clear hi; fin_cases ho <;> exact ⟨by decide, by decide, rfl, rfl⟩
    rw [step_read_stored hc hr hlt halign hi (.inr hnone), hzero]

/-- STATUS bit by bit (R31). -/
theorem statusWord_getLsbD (s : State) {k : Nat} (hk : k < 32) :
    s.statusWord.getLsbD k =
      if k = 0 then s.busy else if k = 1 then s.done else if k = 2 then s.err else if k = 3 then false
      else if k < 8 then (errNumber s.errCode).getLsbD (k - 4) else if k = 8 then s.irq else false := by
  simp only [State.statusWord, BitVec.getLsbD_append]
  interval_cases k <;> simp

/-- STATUS[7:4] holds the number of ERRCODE (R31, R173). -/
theorem statusWord_errCode (s : State) : s.statusWord.extractLsb' 4 4 = errNumber s.errCode := by
  apply BitVec.eq_of_getLsbD_eq
  intro k hk
  rw [BitVec.getLsbD_extractLsb', statusWord_getLsbD s (by omega)]
  interval_cases k <;> simp

/-- STATUS[31:9] is reserved and reads 0 (R31). -/
theorem statusWord_high (s : State) : s.statusWord.extractLsb' 9 23 = 0#23 := by
  apply BitVec.eq_of_getLsbD_eq
  intro k hk
  rw [BitVec.getLsbD_extractLsb', statusWord_getLsbD s (by omega)]
  simp (disch := omega) [if_neg]

/-- Settles O19: a read of STATUS answers its word as stored, busy or idle, and the engine's micro-steps leave the answer. -/
theorem statusReadShowsTheFlagsAndTheInterruptLevel : Obligations.StatusReadShowsTheFlagsAndTheInterruptLevel := by
  unfold Obligations.StatusReadShowsTheFlagsAndTheInterruptLevel
  intro s n rest hc hr hi
  have bit := @statusWord_getLsbD s
  refine ⟨_, s.statusWord, step_read_stored hc hr (by decide) (by decide) hi (.inr rfl), (runGrant_sameOutside _).responses,
    bit (k := 0) (by decide), bit (k := 1) (by decide), bit (k := 2) (by decide), bit (k := 3) (by decide), ?_,
    bit (k := 8) (by decide), rfl, statusWord_high s⟩
  rw [statusWord_errCode]
  cases s.errCode <;> rfl

end Sys2Proof.Machine
end

section
/-! PROOFS. The bytes of the block and the key (O60), and the configurations that a step takes (O26). -/

namespace Sys2Proof.Machine

/-! ### Bytes and nibbles -/

/-- Eight bits are their high nibble before their low one. -/
theorem extractLsb'_byte {w : Nat} (x : BitVec w) (p : Nat) : x.extractLsb' p 8 = x.extractLsb' (p + 4) 4 ++ x.extractLsb' p 4 :=
  (BitVec.extractLsb'_append_extractLsb'_eq_extractLsb' (len₁ := 4) (len₂ := 4) rfl).symm

/-- Settles O60: the nibbles of a byte stand side by side in the cells of a row and in the key. -/
theorem bytesAreTwoNibblesHighFirst : Obligations.BytesAreTwoNibblesHighFirst := by
  unfold Obligations.BytesAreTwoNibblesHighFirst
  intro sv kv
  refine ⟨fun r => ?_, fun j hj => ?_⟩
  · fin_cases r <;> exact ⟨extractLsb'_byte sv _, extractLsb'_byte sv _⟩
  · rw [keyByte, extractLsb'_byte, keyNibble, keyNibble, show 76 - 4 * (2 * j) = 72 - 8 * j + 4 by omega,
      show 76 - 4 * (2 * j + 1) = 72 - 8 * j by omega]

/-! ### The check of a configuration -/

/-- A table of 16 entries that holds every nibble is a bijection, and only such a table is (R26, R27). -/
theorem sboxOk_iff (sbox : List Nibble) : sboxOk sbox = true ↔ sbox.length = 16 ∧ Function.Bijective (sboxAt sbox) := by
  simp only [sboxOk, Bool.and_eq_true, beq_iff_eq, List.all_eq_true, List.mem_range, List.contains_iff_mem]
  refine and_congr_right fun hlen => ?_
  have hlt (x : Nibble) : x.toNat < sbox.length := by omega
  have hat (x : Nibble) : sboxAt sbox x = sbox[x.toNat]'(hlt x) := by simp [sboxAt, hlt x]
  rw [← Finite.surjective_iff_bijective]
  constructor
  · intro hall y
    obtain ⟨k, hk, hy⟩ := List.getElem_of_mem (hall y.toNat y.isLt)
    have hk16 : k < 16 := hlen ▸ hk
    refine ⟨BitVec.ofNat 4 k, ?_⟩
    simp [hat, Nat.mod_eq_of_lt hk16, hy]
  · intro hsurj x _
    obtain ⟨k, hk⟩ := hsurj (BitVec.ofNat 4 x)
    rw [← hk, hat]
    exact List.getElem_mem _

theorem configOk_iff (cfg : Config) :
    configOk cfg = true ↔
      (cfg.sbox.length = 16 ∧ Function.Bijective (sboxAt cfg.sbox)) ∧
      (cfg.rc.length = 48 ∧ ∀ x ∈ cfg.rc, x ≤ 0x3F) ∧
      (cfg.mc.length = 4 ∧ ∀ row ∈ cfg.mc, row.length = 4) ∧
      cfg.ledBase % 64 = 0 ∧ cfg.lat.length = 10 ∧ ∀ n ∈ cfg.lat, 1 ≤ n := by
  simp [configOk, sboxOk_iff, rcOk, mcOk, and_assoc]

/-! ### No turn is refused for the configuration -/

theorem issue_next (i : Instr) (s : State) : ∃ t, issue i s = .next t := by
  unfold issue
  split
  · exact ⟨_, rfl⟩
  · split <;> exact ⟨_, rfl⟩

theorem ctrlWrite_next (w : Word) (s : State) : ∃ t, ctrlWrite w s = .next t := by
  unfold ctrlWrite
  split
  · exact ⟨_, rfl⟩
  · split
    · exact ⟨_, rfl⟩
    · rw [exec_eq_issue]; exact issue_next _ s

/-- The engine takes every write of a register. -/
theorem busWrite_next (r : Reg) (v : Word) (s : State) : ∃ t, busWrite r v s = .next t := by
  cases r <;> try exact ⟨_, rfl⟩
  case ctrl => exact ctrlWrite_next v s

theorem target_stop_ne {s : State} {a w : Nat} {x : Refusal} (h : s.target a w = .stop x) : x ≠ .badConfiguration := by
  unfold State.target at h
  repeat' split at h
  all_goals cases h
  all_goals simp

theorem performEvent_ne_badConfiguration (e : Event) (s : State) : performEvent e s ≠ .refused .badConfiguration := by
  intro h
  cases e <;> simp only [performEvent] at h
  case quiet => cases h
  case assertReset => cases h
  case releaseReset => cases h
  case read a w =>
    split at h <;> cases h
    exact target_stop_ne ‹_› rfl
  case write a w v =>
    split at h
    · rename_i r _
      obtain ⟨t, ht⟩ := busWrite_next r v s
      cases ht ▸ h
    · cases h
    · cases h
      exact target_stop_ne ‹_› rfl

/-- A step is refused for its configuration exactly when the check fails (D30). -/
theorem step_ne_badConfiguration_iff (s : State) : step s ≠ .refused .badConfiguration ↔ configOk s.cfg = true := by
  refine ⟨fun h => ?_, fun hc => ?_⟩
  · by_contra hc
    exact h (by simp [step, hc])
  · cases hi : s.inputs with
    | nil => simp [step_alone hc hi]
    | cons t rest => rw [step_turn hc hi]; exact performEvent_ne_badConfiguration t.event _

/-- Settles O26: no turn answers that refusal itself, so it comes from the check of the configuration alone. -/
theorem badConfigurationsAreRefused : Obligations.BadConfigurationsAreRefused := by
  unfold Obligations.BadConfigurationsAreRefused
  intro s
  rw [step_ne_badConfiguration_iff, configOk_iff]

end Sys2Proof.Machine
end

section
/-! PROOFS. A turn's micro-steps can be given in two turns (O43): what a turn does to the engine depends on neither its grant nor the turns to come. -/

namespace Sys2Proof.Machine

/-! ### The turns to come and the grant play no part in what a turn does -/

/-- The state with other turns to come and another grant. -/
def State.withTurns (turns : List Turn) (grant : Nat) (s : State) : State := { s with inputs := turns, grant := grant }

theorem microStep_withTurns (i : Instr) (k : Nat) (s : State) (turns : List Turn) (g : Nat) :
    microStep i k (s.withTurns turns g) = (microStep i k s).withTurns turns g := by
  cases i <;> try rfl
  case encrypt => simp only [microStep, microEncrypt]; split <;> [rfl; (split <;> rfl)]
  case step j => simp only [microStep, microStepGroup]; split <;> rfl

theorem completeIfLast_withTurns (i : Instr) (s : State) (turns : List Turn) (g : Nat) :
    (s.withTurns turns g).completeIfLast i = (s.completeIfLast i).withTurns turns g := by
  simp only [State.completeIfLast, apply_ite (State.withTurns turns g)]
  rfl

theorem engineStep_withTurns (s : State) (turns : List Turn) (g : Nat) :
    (s.withTurns turns g).engineStep = s.engineStep.withTurns turns g := by
  unfold State.engineStep
  rw [show (s.withTurns turns g).busy = s.busy from rfl, show (s.withTurns turns g).cur = s.cur from rfl]
  split
  · rw [← completeIfLast_withTurns, microStep_withTurns]; rfl
  · rfl

theorem advance_withTurns (n : Nat) (s : State) (turns : List Turn) (g : Nat) :
    (s.withTurns turns g).advance n = (s.advance n).withTurns turns g := by
  induction n generalizing s with
  | zero => rfl
  | succ n ih => rw [advance_succ, advance_succ, engineStep_withTurns, ih]

/-- A grant of n is n turns of the engine. -/
theorem runGrant_withTurns (n : Nat) (s : State) (turns : List Turn) :
    (s.withTurns turns n).runGrant = (s.advance n).withTurns turns 0 :=
  advance_withTurns n s turns 0

/-- Whatever its grant and the turns to come, the turn goes on, and the engine takes its grant from u. -/
def GoesOnAt (turn : State → Host.Outcome State Fault Refusal) (s u : State) : Prop :=
  ∀ turns n, turn (s.withTurns turns n) = .next (u.withTurns turns n).runGrant

theorem ctrlWrite_goesOn (w : Word) (s : State) : ∃ u, GoesOnAt (ctrlWrite w) s u := by
  cases hb : s.busy with
  | true => exact ⟨s.raiseError .busyWrite, fun _ _ => if_pos hb⟩
  | false =>
    have hidle (turns n) : (s.withTurns turns n).busy = false := hb
    cases hd : decode w with
    | error c => exact ⟨s.raiseError c, fun turns n => by rw [ctrlWrite, hidle, hd]; rfl⟩
    | command i =>
      refine ⟨s.accept i, fun turns n => ?_⟩
      rw [ctrlWrite, hidle, hd]
      exact (exec_eq_issue i _).trans (issue_accept (hidle turns n) (decode_command_wf hd))

theorem writeData_withTurns {f : State → State} {s : State} {turns : List Turn} {n : Nat}
    (hf : ∀ turns n, f (s.withTurns turns n) = (f s).withTurns turns n) :
    (s.withTurns turns n).writeData f = (s.writeData f).withTurns turns n := by
  simp only [State.writeData, apply_ite (State.withTurns turns n), hf]
  rfl

theorem busWrite_goesOn (r : Reg) (v : Word) (s : State) : ∃ u, GoesOnAt (busWrite r v) s u := by
  have hstored (f : State → State) (hf : ∀ turns n, f (s.withTurns turns n) = (f s).withTurns turns n)
      (hw : ∀ t, busWrite r v t = .next (t.writeData f).runGrant) : ∃ u, GoesOnAt (busWrite r v) s u :=
    ⟨s.writeData f, fun turns n => by rw [hw, writeData_withTurns hf]⟩
  cases r
  case ctrl => exact ctrlWrite_goesOn v s
  case status => exact ⟨s.writeStatus v, fun _ _ => rfl⟩
  case irqen => exact ⟨s.writeIrqen v, fun _ _ => rfl⟩
  case progress => exact ⟨s, fun _ _ => rfl⟩
  case gfres => exact ⟨s, fun _ _ => rfl⟩
  case reserved => exact ⟨s, fun _ _ => rfl⟩
  all_goals exact hstored _ (fun _ _ => rfl) (fun _ => rfl)

theorem readReg_withTurns (r : Reg) (s : State) (turns : List Turn) (n : Nat) :
    (s.withTurns turns n).readReg r = (s.readReg r).withTurns turns n := by
  unfold State.readReg
  rw [show (s.withTurns turns n).busy = s.busy from rfl]
  split
  · rfl
  · cases r <;> rfl

theorem assertReset_withTurns (s : State) (turns : List Turn) (n : Nat) :
    (s.withTurns turns n).assertReset = s.assertReset.withTurns turns n := by
  simp only [State.assertReset, apply_ite (State.withTurns turns n)]
  rfl

/-- Whether an event goes on, and the state from which the engine then takes its grant, depend on neither the grant nor the turns to come. -/
theorem performEvent_goesOn_or_stops (e : Event) (s : State) :
    (∃ u, GoesOnAt (performEvent e) s u) ∨ ∀ turns n t, performEvent e (s.withTurns turns n) ≠ .next t := by
  have htarget (a w turns n) : (s.withTurns turns n).target a w = s.target a w := rfl
  cases e with
  | quiet => exact .inl ⟨s, fun _ _ => rfl⟩
  | assertReset => exact .inl ⟨s.assertReset, fun turns n => by rw [performEvent, assertReset_withTurns]⟩
  | releaseReset => exact .inl ⟨s.releaseReset, fun _ _ => rfl⟩
  | read a w =>
    simp only [GoesOnAt, performEvent, htarget, readReg_withTurns]
    cases s.target a w with
    | reg r => exact .inl ⟨s.readReg r, fun _ _ => rfl⟩
    | outside => exact .inr (by simp)
    | stop x => exact .inr (by simp)
  | write a w v =>
    simp only [GoesOnAt, performEvent, htarget]
    cases s.target a w with
    | reg r => exact .inl (busWrite_goesOn r v s)
    | outside => exact .inr (by simp)
    | stop x => exact .inr (by simp)

/-- Settles O43: a turn that goes on gives its grant to a state that does not depend on it, and turns of the engine compose. -/
theorem grantsSplitIntoTurnsOfTheEngineAlone : Obligations.GrantsSplitIntoTurnsOfTheEngineAlone := by
  unfold Obligations.GrantsSplitIntoTurnsOfTheEngineAlone
  intro s t e n m rest
  by_cases hc : configOk s.cfg = true
  swap
  · simp [step, hc]
  have hstep (k turns) : step { s with inputs := ⟨e, k⟩ :: turns } = performEvent e (s.withTurns turns k) :=
    step_turn (s := { s with inputs := ⟨e, k⟩ :: turns }) hc rfl
  obtain ⟨u, hu⟩ | hstop := performEvent_goesOn_or_stops e s
  · have hfirst := (hstep n (⟨.quiet, m⟩ :: rest)).trans (hu _ n)
    have hcfg : configOk (u.withTurns (⟨.quiet, m⟩ :: rest) n).runGrant.cfg = true := by
      rw [configurationNeverChanges _ _ hfirst]; exact hc
    have hsecond : step (u.withTurns (⟨.quiet, m⟩ :: rest) n).runGrant = .next ((u.advance (n + m)).withTurns rest 0) := by
      rw [runGrant_withTurns] at hcfg ⊢
      rw [step_turn hcfg rfl, advance_add]
      exact congrArg _ (runGrant_withTurns m (u.advance n) rest)
    rw [hstep, hu, runGrant_withTurns, hfirst]
    simp [hsecond]
  · simp [hstep, hstop]

end Sys2Proof.Machine
end

section
/-! PROOFS. What a read leaves unchanged (O18), and which accesses are refused, performed or fault (O20, O21). -/

namespace Sys2Proof.Machine

/-! ### What a read leaves unchanged -/

/-- The word that a register holds is read off the engine's own state. -/
theorem regWord_frame (s : State) (r : Reg) (turns : List Turn) (grant : Nat) (responses : List Word) :
    State.regWord { s with inputs := turns, grant := grant, responses := responses } r = s.regWord r := by
  cases r <;> rfl

/-- Settles O18: a read answers a free value and draws it, or answers the stored word, which the read itself does not change. -/
theorem readsHaveNoSideEffects : Obligations.ReadsHaveNoSideEffects := by
  unfold Obligations.ReadsHaveNoSideEffects
  intro s off rest hc hr ho h4 hi
  by_cases hstored : s.busy = false ∨ busyFreeBits (regAt off) = none
  · refine ⟨s.regWord (regAt off), s.draws, ?_, fun hb => ⟨rfl, ?_⟩⟩
    · rw [step_read_stored hc hr ho h4 hi hstored, runGrant_zero rfl]
    · rintro rest' rfl
      have hsame := regWord_frame s (regAt off) (⟨.read (s.cfg.ledBase + off) 4, 0⟩ :: rest') 0 (s.regWord (regAt off) :: s.responses)
      rw [step_read_stored (by exact hc) (by exact hr) ho h4 rfl (.inl (by exact hb)), runGrant_zero rfl, hsame]
  · obtain ⟨hb, hfree⟩ := not_or.mp hstored
    obtain ⟨m, hm⟩ := Option.ne_none_iff_exists'.mp hfree
    refine ⟨Config.freeWord s.draws &&& m, s.draws + 1, ?_, fun hidle => absurd hidle hb⟩
    rw [step_read_free hc hr ho h4 hi (by simpa using hb) hm, runGrant_zero rfl]

/-! ### The outcome of an access -/

/-- The turn of a read or of a write at an address. -/
def State.AccessesFirst (s : State) (a width : Nat) : Prop :=
  ∃ (n : Nat) (rest : List Turn), s.inputs = ⟨.read a width, n⟩ :: rest ∨ ∃ v, s.inputs = ⟨.write a width v, n⟩ :: rest

/-- The outcome that an access with this target has: a register performs it, an address outside the window faults, a stop refuses it. -/
def Target.Answers (o : Host.Outcome State Fault Refusal) : Target → Prop
  | .reg _ => ∃ t, o = .next t
  | .outside => o = .fault .outsideWindow
  | .stop x => o = .refused x

/-- A step whose turn is an access has the outcome of its target. -/
theorem step_answers_target {s : State} {a width : Nat} (hc : configOk s.cfg = true) (hi : s.AccessesFirst a width) :
    (s.target a width).Answers (step s) := by
  obtain ⟨n, rest, hi | ⟨v, hi⟩⟩ := hi
  all_goals
    have htarget : State.target a width { s with inputs := rest, grant := n } = s.target a width := rfl
    simp only [step_turn hc hi, performEvent, htarget]
  · cases s.target a width with
    | reg r => exact ⟨_, rfl⟩
    | outside => rfl
    | stop x => rfl
  · cases s.target a width with
    | reg r => exact busWrite_next r v _
    | outside => rfl
    | stop x => rfl

theorem target_outside {s : State} {a : Nat} (hr : s.inReset = false) (ha : a < s.cfg.ledBase ∨ s.cfg.ledBase + 64 ≤ a)
    (width : Nat) : s.target a width = .outside := by
  simp [State.target, hr, ha]

theorem target_narrow {s : State} {off width : Nat} (hr : s.inReset = false) (ho : off < 64) (hw : width ≠ 4) :
    s.target (s.cfg.ledBase + off) width = .stop .notWordAccess := by
  rw [State.target, if_neg (by simp [hr]), if_neg (by omega), if_pos hw]

theorem target_misaligned {s : State} {off : Nat} (hr : s.inReset = false) (ho : off < 64) (h4 : off % 4 ≠ 0) :
    s.target (s.cfg.ledBase + off) 4 = .stop .misaligned := by
  rw [State.target, if_neg (by simp [hr]), if_neg (by omega), if_neg (by omega), if_pos (by simpa using h4)]

/-- Settles O20: inside the window the width is checked before the alignment, and an access that passes both meets a register. -/
theorem narrowOrMisalignedAccessesAreRefused : Obligations.NarrowOrMisalignedAccessesAreRefused := by
  unfold Obligations.NarrowOrMisalignedAccessesAreRefused
  intro s off width n v rest hc hr ho hi
  have haccess : s.AccessesFirst (s.cfg.ledBase + off) width := ⟨n, rest, hi.imp_right fun h => ⟨v, h⟩⟩
  have hanswer := step_answers_target hc haccess
  refine ⟨fun hw => ?_, ?_, ?_⟩
  · rwa [target_narrow hr ho hw] at hanswer
  · rintro rfl h4
    rwa [target_misaligned hr ho h4] at hanswer
  · rintro rfl h4
    rwa [target_window hr ho h4] at hanswer

/-- Settles O21: the window is checked before the width. -/
theorem accessOutsideTheWindowFaults : Obligations.AccessOutsideTheWindowFaults := by
  unfold Obligations.AccessOutsideTheWindowFaults
  intro s a width n v rest hc hr ha hi
  have hanswer := step_answers_target hc ⟨n, rest, hi.imp_right fun h => ⟨v, h⟩⟩
  rwa [target_outside hr ha] at hanswer

end Sys2Proof.Machine
end

section
/-! PROOFS. The encoding (O1 to O8): what each answer of the decoder says of a word's row, the row as an opcode and its operand fields, and the assembler. -/

namespace Sys2Proof

/-! ### What each answer of the decoder says of the selected row (R79) -/

theorem decode_of_row {w : Word} {i : Instr} (h : selectRow w = some i) :
    decode w = if w &&& i.mask ≠ i.pattern then .error .reservedField else if i.wf then .command i else .error .operandRange := by
  rw [decode, h]

theorem decode_eq_illegalOpcode_iff {w : Word} : decode w = .error .illegalOpcode ↔ selectRow w = none := by
  cases h : selectRow w with
  | none => simp [decode, h]
  | some i => rw [decode_of_row h]; split_ifs <;> simp

theorem decode_eq_reservedField_iff {w : Word} :
    decode w = .error .reservedField ↔ ∃ i, selectRow w = some i ∧ w &&& i.mask ≠ i.pattern := by
  cases h : selectRow w with
  | none => simp [decode, h]
  | some i => rw [decode_of_row h]; split_ifs <;> simp_all

theorem decode_eq_operandRange_iff {w : Word} :
    decode w = .error .operandRange ↔ ∃ i, selectRow w = some i ∧ w &&& i.mask = i.pattern ∧ i.wf = false := by
  cases h : selectRow w with
  | none => simp [decode, h]
  | some i => rw [decode_of_row h]; split_ifs <;> simp_all

theorem decode_eq_command_iff {w : Word} {i : Instr} :
    decode w = .command i ↔ selectRow w = some i ∧ w &&& i.mask = i.pattern ∧ i.wf = true := by
  cases h : selectRow w with
  | none => simp [decode, h]
  | some j => rw [decode_of_row h]; split_ifs <;> simp <;> rintro rfl <;> simp_all

/-! ### A row as an opcode and its operand fields (R73, R74) -/

/-- The OP column of R74. -/
def Instr.opcode : Instr → BitVec 4
  | .nop => 0x0#4
  | .encrypt => 0x1#4
  | .addkey _ => 0x2#4
  | .addconst _ => 0x3#4
  | .subcells => 0x4#4
  | .shiftrows => 0x5#4
  | .mixcols => 0x6#4
  | .round _ => 0x7#4
  | .step _ => 0x8#4
  | .gfmul _ _ => 0x9#4

/-- The operands of a command stand in the fields of the word that its form uses (R73). -/
def Instr.OperandsIn (w : Word) : Instr → Prop
  | .addkey g | .step g => giField w = g
  | .addconst r | .round r => riField w = r
  | .gfmul a b => gaField w = a ∧ gbField w = b
  | .nop | .encrypt | .subcells | .shiftrows | .mixcols => True

theorem selectRow_eq_some_iff {w : Word} {i : Instr} : selectRow w = some i ↔ opField w = i.opcode ∧ i.OperandsIn w := by
  constructor
  · intro h
    unfold selectRow at h
    split at h <;> cases h <;> rename_i hop
    all_goals exact ⟨BitVec.eq_of_toNat_eq hop, by simp [Instr.OperandsIn]⟩
  · rintro ⟨hop, hin⟩
    cases i <;> simp_all [selectRow, Instr.opcode, Instr.OperandsIn]

theorem selectRow_eq_none_iff {w : Word} : selectRow w = none ↔ 0xA ≤ (opField w).toNat := by
  unfold selectRow
  split <;> simp only [imp_false, reduceCtorEq, false_iff, true_iff] at * <;> omega

theorem exists_row_of_opcode {w : Word} (h : (opField w).toNat < 10) : ∃ i, selectRow w = some i :=
  Option.ne_none_iff_exists'.mp fun hnone => by
    have := selectRow_eq_none_iff.mp hnone
    omega

/-- Every mask keeps the OP field, and every match holds the row's opcode there. -/
theorem opField_of_fits {w : Word} {i : Instr} (h : w &&& i.mask = i.pattern) : opField w = i.opcode := by
  have hmask : opField i.mask = BitVec.allOnes 4 := by cases i <;> simp only [Instr.mask] <;> rfl
  calc opField w = opField w &&& opField i.mask := by rw [hmask, BitVec.and_allOnes]
    _ = opField (w &&& i.mask) := BitVec.extractLsb'_and.symm
    _ = opField i.pattern := by rw [h]
    _ = i.opcode := by cases i <;> simp only [Instr.pattern] <;> rfl

/-! ### The word of a command (R80) -/

theorem encode_fits (i : Instr) : encode i &&& i.mask = i.pattern := by
  cases i with
  | nop => exact Laws.EncodesItsRow.nop
  | encrypt => exact Laws.EncodesItsRow.encrypt
  | addkey g => exact Laws.EncodesItsRow.addkey g
  | addconst r => exact Laws.EncodesItsRow.addconst r
  | subcells => exact Laws.EncodesItsRow.subcells
  | shiftrows => exact Laws.EncodesItsRow.shiftrows
  | mixcols => exact Laws.EncodesItsRow.mixcols
  | round r => exact Laws.EncodesItsRow.round r
  | step g => exact Laws.EncodesItsRow.step g
  | gfmul a b => exact Laws.EncodesItsRow.gfmul a b

/-- The two operands of GFMUL do not meet in their word. -/
theorem encode_gfmul_operandsIn (a b : Nibble) : (Instr.gfmul a b).OperandsIn (encode (.gfmul a b)) := by
  constructor <;> ext k hk <;> simp only [gaField, gbField, encode] <;> interval_cases k <;> simp

theorem encode_operandsIn (i : Instr) : i.OperandsIn (encode i) := by
  cases i with
  | addkey g | step g => revert g; simp only [Instr.OperandsIn]; decide
  | addconst r | round r => revert r; simp only [Instr.OperandsIn]; decide
  | gfmul a b => exact encode_gfmul_operandsIn a b
  | nop | encrypt | subcells | shiftrows | mixcols => trivial

theorem selectRow_encode (i : Instr) : selectRow (encode i) = some i :=
  selectRow_eq_some_iff.mpr ⟨opField_of_fits (encode_fits i), encode_operandsIn i⟩

theorem decode_encode {i : Instr} (hwf : i.wf = true) : decode (encode i) = .command i :=
  decode_eq_command_iff.mpr ⟨selectRow_encode i, encode_fits i, hwf⟩

/-- Settles O1: the word selects the command's row, fits it, and the operands are legal. -/
theorem decodeOfEncodeIsTheCommand : Obligations.DecodeOfEncodeIsTheCommand := by
  unfold Obligations.DecodeOfEncodeIsTheCommand
  exact fun _ hwf => decode_encode hwf

/-- A word is determined by its eight fields. -/
theorem word_ext {v w : Word} (hop : opField v = opField w) (hrsv0 : rsv0Field v = rsv0Field w) (hri : riField v = riField w)
    (hrsv1 : rsv1Field v = rsv1Field w) (hgi : giField v = giField w) (hga : gaField v = gaField w) (hgb : gbField v = gbField w)
    (hrsv2 : rsv2Field v = rsv2Field w) : v = w := by
  rw [← joinFields_of_fields v, ← joinFields_of_fields w, hop, hrsv0, hri, hrsv1, hgi, hga, hgb, hrsv2]

/-- Two words that select one command and fit its row are equal: they agree in the opcode and the operands, and the other fields are 0. -/
theorem eq_of_same_row {v w : Word} {i : Instr} (hv : selectRow v = some i) (hw : selectRow w = some i)
    (hfv : v &&& i.mask = i.pattern) (hfw : w &&& i.mask = i.pattern) : v = w := by
  obtain ⟨hv0, hv1, hv2, hvri, hvgi, hvgab⟩ := (fits_row_iff hv).mp hfv
  obtain ⟨hw0, hw1, hw2, hwri, hwgi, hwgab⟩ := (fits_row_iff hw).mp hfw
  obtain ⟨hvop, hvin⟩ := selectRow_eq_some_iff.mp hv
  obtain ⟨hwop, hwin⟩ := selectRow_eq_some_iff.mp hw
  apply word_ext (hvop.trans hwop.symm) (hv0.trans hw0.symm) _ (hv1.trans hw1.symm) _ _ _ (hv2.trans hw2.symm)
  all_goals cases i <;> simp_all [Instr.opcode, Instr.OperandsIn]

/-- Settles O2: the word and the command's own word select one command and fit its row. -/
theorem everyCommandHasExactlyOneWord : Obligations.EveryCommandHasExactlyOneWord := by
  unfold Obligations.EveryCommandHasExactlyOneWord
  intro w i h
  obtain ⟨hrow, hfits, hwf⟩ := decode_eq_command_iff.mp h
  exact ⟨eq_of_same_row (selectRow_encode i) hrow (encode_fits i) hfits, hwf⟩

/-! ### The opcode table and the error codes (R74 to R77) -/

/-- Settles O3: a word that fits a row has the row's opcode in its OP field. -/
theorem opcodeRowsDoNotOverlap : Obligations.OpcodeRowsDoNotOverlap := by
  unfold Obligations.OpcodeRowsDoNotOverlap
  intro i j w hi hj opNumber
  have hopcode (k : Instr) : opNumber k = k.opcode := by cases k <;> rfl
  rw [hopcode, hopcode]
  have hopi := opField_of_fits hi
  have hopj := opField_of_fits hj
  exact ⟨hopi, hopj, hopi.symm.trans hopj⟩

/-- Settles O4: the word misses its row exactly when one of the fields that the row wants at 0 is not. -/
theorem reservedFieldExactlyWhenAnUnusedBitIsSet : Obligations.ReservedFieldExactlyWhenAnUnusedBitIsSet := by
  unfold Obligations.ReservedFieldExactlyWhenAnUnusedBitIsSet
  intro w hdefined
  refine ⟨?_, decode_eq_reservedField_iff⟩
  obtain ⟨i, hrow⟩ := exists_row_of_opcode hdefined
  have hmiss : decode w = .error .reservedField ↔ ¬ (w &&& i.mask = i.pattern) := by
    simp [decode_eq_reservedField_iff, hrow]
  rw [hmiss, fits_row_iff hrow]
  tauto

/-- The range check of the selected row, in the fields of the word (R77). -/
theorem wf_eq_false_iff_of_row {w : Word} {i : Instr} (h : selectRow w = some i) :
    i.wf = false ↔
      ((opField w = 0x3#4 ∨ opField w = 0x7#4) ∧ 47 < (riField w).toNat) ∨
        (opField w = 0x2#4 ∧ 12 < (giField w).toNat) ∨
        (opField w = 0x8#4 ∧ 11 < (giField w).toNat) := by
  obtain ⟨hop, hin⟩ := selectRow_eq_some_iff.mp h
  rw [hop]
  cases i <;> simp_all [Instr.opcode, Instr.OperandsIn, Instr.wf]

/-- Settles O5: a word that fits its row is rejected exactly by the row's range check. -/
theorem operandRangeExactlyBeyondTheLegalIndices : Obligations.OperandRangeExactlyBeyondTheLegalIndices := by
  unfold Obligations.OperandRangeExactlyBeyondTheLegalIndices
  intro w hdefined hpasses
  obtain ⟨i, hrow⟩ := exists_row_of_opcode hdefined
  have hfits : w &&& i.mask = i.pattern :=
    not_not.mp fun hmiss => hpasses (decode_eq_reservedField_iff.mpr ⟨i, hrow, hmiss⟩)
  rw [← wf_eq_false_iff_of_row hrow]
  simp [decode_eq_operandRange_iff, hrow, hfits]

/-- Settles O6: ILLEGAL_OPCODE is the answer exactly when no row is selected. -/
theorem reservedOpcodesAreIllegalWhateverTheOtherBits : Obligations.ReservedOpcodesAreIllegalWhateverTheOtherBits := by
  unfold Obligations.ReservedOpcodesAreIllegalWhateverTheOtherBits
  exact fun _ => decode_eq_illegalOpcode_iff.trans selectRow_eq_none_iff

/-- Settles O7: the decoder and the encoder evaluate at each listed word and command. -/
theorem wordsOfTheSpecDecodeAsItSays : Obligations.WordsOfTheSpecDecodeAsItSays := by
  unfold Obligations.WordsOfTheSpecDecodeAsItSays
  decide

end Sys2Proof

namespace Sys2Proof.Machine

/-! ### The assembler takes only legal commands (R80) -/

theorem plainCommand_wf {m : List Char} {i : Instr} (h : plainCommand m = some i) : i.wf = true := by
  unfold plainCommand at h
  split_ifs at h <;> cases h <;> rfl

theorem indexCommand_wf {m : List Char} {n : Nat} {i : Instr} (h : indexCommand m n = some i) : i.wf = true := by
  unfold indexCommand at h
  split_ifs at h <;> cases h <;> simp [Instr.wf] <;> omega

theorem pairCommand_wf {m : List Char} {a b : Nat} {i : Instr} (h : pairCommand m a b = some i) : i.wf = true := by
  unfold pairCommand at h
  split_ifs at h
  cases h
  rfl

theorem parseLine_wf {line : List Char} {i : Instr} (h : parseLine line = some i) : i.wf = true := by
  unfold parseLine at h
  split at h
  · exact plainCommand_wf h
  · obtain ⟨n, -, hn⟩ := Option.bind_eq_some_iff.mp h
    exact indexCommand_wf hn
  · obtain ⟨a, -, ha⟩ := Option.bind_eq_some_iff.mp h
    obtain ⟨b, -, hb⟩ := Option.bind_eq_some_iff.mp ha
    exact pairCommand_wf hb
  · cases h

/-- Settles O8: a line's command is legal, so its word decodes to it. -/
theorem assemblerEmitsOnlyWordsTheDecoderTakes : Obligations.AssemblerEmitsOnlyWordsTheDecoderTakes := by
  unfold Obligations.AssemblerEmitsOnlyWordsTheDecoderTakes
  intro line w h
  obtain ⟨i, hparse, rfl⟩ := Option.map_eq_some_iff.mp h
  exact ⟨i, hparse, decode_encode (parseLine_wf hparse)⟩

end Sys2Proof.Machine
end

section
/-! PROOFS. How a command word reaches exec (O9), and what exec does with an operand out of range (O38). -/

namespace Sys2Proof.Machine

/-- A rejection uses up the grant of an idle engine and changes only ERR and ERRCODE (R172). -/
theorem runGrant_raiseError_idle {s : State} (hb : s.busy = false) (c : ErrCode) :
    (s.raiseError c).runGrant = { s with grant := 0, err := true, errCode := if s.err then s.errCode else c } :=
  runGrant_idle hb

/-- Settles O38: an operand out of range makes the command ill-formed, and issue rejects it. -/
theorem commandsWithIllegalOperandsAreRejected : Obligations.CommandsWithIllegalOperandsAreRejected := by
  unfold Obligations.CommandsWithIllegalOperandsAreRejected
  intro i s hb hrange
  have hwf : i.wf = false := by
    obtain ⟨g, rfl, hg⟩ | ⟨r, rfl | rfl, hr⟩ | ⟨g, rfl, hg⟩ := hrange <;> simpa [Instr.wf]
  rw [exec_eq_issue, issue_illegal hb hwf, runGrant_raiseError_idle hb]

/-- An idle engine executes the command of a CTRL write that decodes to one (R171). -/
theorem ctrlWrite_command {s : State} {w : Word} {i : Instr} (hb : s.busy = false) (hd : decode w = .command i) :
    ctrlWrite w s = exec i s := by
  simp [ctrlWrite, hb, hd]

/-- Settles O9: offset 0 of the window is CTRL. -/
theorem stepRunsTheDecodedCommand : Obligations.StepRunsTheDecodedCommand := by
  unfold Obligations.StepRunsTheDecodedCommand
  intro s w i n rest hc hr hb hi hd
  rw [step_write (off := 0) hc hr (by decide) (by decide) hi]
  exact ctrlWrite_command hb hd

end Sys2Proof.Machine
end

section
/-! PROOFS. The multiplication of GF(2^4) (O51), and the GFMUL command (O28). -/

namespace Sys2Proof.Machine

/-! ### gf_mul as a sum over the bits of its second operand (R90) -/

/-- The loop unrolled: the sum of a·x^k over the set bits k of b. -/
theorem gfMul_eq_sum (a b : Nibble) :
    gfMul a b =
      (if b.getLsbD 0 then a else 0#4) ^^^ (if b.getLsbD 1 then xtime a else 0#4) ^^^
        (if b.getLsbD 2 then xtime (xtime a) else 0#4) ^^^ (if b.getLsbD 3 then xtime (xtime (xtime a)) else 0#4) := by
  have xor_if (p : Bool) (x y : Nibble) : (if p then x ^^^ y else x) = x ^^^ (if p then y else 0#4) := by
    cases p <;> simp
  simp [gfMul, gfMulTurn, xor_if]

theorem xtime_eq_shift_xor_reduction (a : Nibble) : xtime a = (a <<< 1) ^^^ (if a.getLsbD 3 then 0x3#4 else 0#4) := by
  unfold xtime
  split <;> simp

theorem xtime_xor (a b : Nibble) : xtime (a ^^^ b) = xtime a ^^^ xtime b := by
  have reduction (p q : Bool) : (if p ^^ q then 0x3#4 else 0#4) = (if p then 0x3#4 else 0#4) ^^^ (if q then 0x3#4 else 0#4) := by
    cases p <;> cases q <;> rfl
  simp only [xtime_eq_shift_xor_reduction, BitVec.shiftLeft_xor_distrib, BitVec.getLsbD_xor, reduction]
  ac_rfl

theorem gfMul_xor_left (a b c : Nibble) : gfMul (a ^^^ b) c = gfMul a c ^^^ gfMul b c := by
  have if_xor (p : Bool) (x y : Nibble) :
      (if p then x ^^^ y else 0#4) = (if p then x else 0#4) ^^^ (if p then y else 0#4) := by
    cases p <;> simp
  simp only [gfMul_eq_sum, xtime_xor, if_xor]
  ac_rfl

/-- A map that is linear over GF(2) and commutes with multiplication by x commutes with multiplication by every b. -/
theorem gfMul_map {f : Nibble → Nibble} (hxor : ∀ a b, f (a ^^^ b) = f a ^^^ f b) (hxtime : ∀ a, f (xtime a) = xtime (f a))
    (a b : Nibble) : gfMul (f a) b = f (gfMul a b) := by
  have hzero : f 0#4 = 0#4 := by simpa using hxor 0#4 0#4
  simp only [gfMul_eq_sum, hxor, hxtime, apply_ite f, hzero]

theorem gfMul_xtime_left (a b : Nibble) : gfMul (xtime a) b = xtime (gfMul a b) :=
  gfMul_map xtime_xor (fun _ => rfl) a b

/-! ### The ring laws (R91): multiplication by c is a map of the kind of `gfMul_map` -/

theorem gfMul_right_comm (a b c : Nibble) : gfMul (gfMul a b) c = gfMul (gfMul a c) b :=
  (gfMul_map (f := (gfMul · c)) (gfMul_xor_left · · c) (gfMul_xtime_left · c) a b).symm

@[simp] theorem gfMul_one_left (b : Nibble) : gfMul 1#4 b = b := by
  revert b
  decide

theorem gfMul_comm (a b : Nibble) : gfMul a b = gfMul b a := by
  simpa using gfMul_right_comm 1#4 a b

theorem gfMul_assoc (a b c : Nibble) : gfMul (gfMul a b) c = gfMul a (gfMul b c) := by
  rw [gfMul_comm a b, gfMul_right_comm, gfMul_comm]

theorem gfMul_xor_right (a b c : Nibble) : gfMul a (b ^^^ c) = gfMul a b ^^^ gfMul a c := by
  simp only [gfMul_comm a, gfMul_xor_left]

@[simp] theorem gfMul_zero_right (a : Nibble) : gfMul a 0#4 = 0#4 := by
  simp [gfMul_eq_sum]

@[simp] theorem gfMul_one_right (a : Nibble) : gfMul a 1#4 = a := by
  rw [gfMul_comm, gfMul_one_left]

/-! ### Inverses (R91) -/

/-- The inverse of a nonzero a: a^14 = a^2 · a^4 · a^8, as the 15 nonzero elements are a group under `gfMul`. -/
def gfInv (a : Nibble) : Nibble :=
  let a2 := gfMul a a
  let a4 := gfMul a2 a2
  gfMul a2 (gfMul a4 (gfMul a4 a4))

theorem gfMul_gfInv : ∀ {a : Nibble}, a ≠ 0#4 → gfMul a (gfInv a) = 1#4 := by
  decide

/-- A nonzero factor is cancelled by its inverse. -/
theorem gfMul_eq_iff {a : Nibble} (ha : a ≠ 0#4) (b c : Nibble) : gfMul a b = c ↔ b = gfMul (gfInv a) c := by
  constructor
  · rintro rfl
    rw [← gfMul_assoc, gfMul_comm _ a, gfMul_gfInv ha, gfMul_one_left]
  · rintro rfl
    rw [← gfMul_assoc, gfMul_gfInv ha, gfMul_one_left]

/-- Settles O51: the ring laws come from linearity in the first operand, the last two from the inverse `gfInv`. -/
theorem gfMulIsTheMultiplicationOfAField : Obligations.GfMulIsTheMultiplicationOfAField := by
  unfold Obligations.GfMulIsTheMultiplicationOfAField
  refine ⟨gfMul_comm, gfMul_zero_right, gfMul_one_right, fun a b c => (gfMul_assoc a b c).symm, gfMul_xor_right, ?_, ?_⟩
  · intro a b hab
    by_cases ha : a = 0#4
    · exact .inl ha
    · exact .inr (by simpa using (gfMul_eq_iff ha b 0#4).mp hab)
  · intro a ha
    exact ⟨gfInv a, gfMul_gfInv ha, fun c hc => by simpa using (gfMul_eq_iff ha c 1#4).mp hc⟩

/-! ### The GFMUL command (R92) -/

/-- Settles O28: GFMUL is legal for all operands, its one micro-step writes the product, and gf_mul is R90's sum. -/
theorem gfmulPutsTheProductInGfres : Obligations.GfmulPutsTheProductInGfres := by
  unfold Obligations.GfmulPutsTheProductInGfres
  intro s a b hb hg
  refine ⟨?_, gfMul_eq_sum a b, rfl⟩
  rw [exec_eq_issue, issue_accept hb rfl, runGrant_accept_one rfl hg]
  rfl

end Sys2Proof.Machine
end

section
/-! PROOFS. SubCells, ShiftRows and MixColumnsSerial: their laws (O52, O53, O54), and the commands that apply them (O31, O32, O33). -/

namespace Sys2Proof.Machine

/-! ### The laws of the three sub-steps -/

/-- SubCells acts on the cells one by one, so it is injective where the S-box is (R101). -/
theorem subCells_injective {sbox : List Nibble} (h : Function.Injective (sboxAt sbox)) : Function.Injective (subCells sbox) := by
  intro A B hAB
  refine block_ext fun r c => h ?_
  rw [← cell_subCells, ← cell_subCells, hAB]

/-- Settles O52: a table that passes the check is injective, so SubCells is, and blocks are finitely many. -/
theorem subCellsIsABijection : Obligations.SubCellsIsABijection := by
  unfold Obligations.SubCellsIsABijection
  intro sbox hok
  obtain ⟨-, hbij⟩ := (sboxOk_iff sbox).mp hok
  exact Finite.injective_iff_bijective.mp (subCells_injective hbij.injective)

/-- Settles O53: column indices are counted modulo 4, so four rotations by r, or one each way, give the column back; row 0 rotates by 0. -/
theorem shiftRowsHasPeriodFourAndAnInverse : Obligations.ShiftRowsHasPeriodFourAndAnInverse := by
  unfold Obligations.ShiftRowsHasPeriodFourAndAnInverse
  have fourRotations : ∀ r c : Fin 4, c + r + r + r + r = c := by decide
  refine fun S => ⟨block_ext fun r c => ?_, block_ext fun r c => ?_, fun c => ?_⟩
  · simp only [cell_shiftRows, fourRotations]
  · rw [cell_ofCells, cell_shiftRows, sub_add_cancel]
  · rw [cell_shiftRows, add_zero]

/-- Each cell of the result is a sum of products, and `gfMul` is linear in its second operand (R109). -/
theorem mixColumns_xor (mc : List (List Nibble)) (A B : Block) :
    mixColumns mc (A ^^^ B) = mixColumns mc A ^^^ mixColumns mc B := by
  refine block_ext fun j c => ?_
  simp only [cell_xor, cell_mixColumns, gfMul_xor_right]
  ac_rfl

theorem mixColumns_zero (mc : List (List Nibble)) : mixColumns mc 0#64 = 0#64 := by
  simpa using mixColumns_xor mc 0#64 0#64

/-- Column c of the result is computed from column c of the argument (R109). -/
theorem cell_mixColumns_congr (mc : List (List Nibble)) {A B : Block} {c : Fin 4} (h : ∀ r, cell A r c = cell B r c) (j : Fin 4) :
    cell (mixColumns mc A) j c = cell (mixColumns mc B) j c := by
  simp only [cell_mixColumns, h]

/-- Settles O54: linearity comes from that of `gfMul`, and the zero from linearity. -/
theorem mixColumnsIsLinearColumnByColumn : Obligations.MixColumnsIsLinearColumnByColumn := by
  unfold Obligations.MixColumnsIsLinearColumnByColumn
  exact fun mc A B => ⟨mixColumns_xor mc A B, mixColumns_zero mc, fun _ hcol => cell_mixColumns_congr mc hcol⟩

/-! ### The commands SUBCELLS, SHIFTROWS and MIXCOLS (R102, R106, R110) -/

/-- A legal command whose one micro-step writes x to STATE completes in its turn and changes nothing else (R154). -/
theorem exec_setSv {i : Instr} {s : State} {x : Block} (hwf : i.wf = true) (hn : nsteps i = 1) (hb : s.busy = false) (hg : 1 ≤ s.grant)
    (hmicro : microStep i 0 { s.accept i with grant := 0 } = State.setSv x { s.accept i with grant := 0 }) :
    exec i s = .next { s with sv := x, busy := false, done := true, cur := none, seq := 1, grant := 0 } := by
  have hne : i ≠ .encrypt := by rintro rfl; simp [nsteps] at hn
  rw [exec_eq_issue, issue_accept hb hwf, runGrant_accept_one hn hg, hmicro]
  simp [State.accept, State.setSv, State.nextSeq, State.complete, hne]

/-- Settles O31: its one micro-step is `subCells`, which looks every cell up in the table. -/
theorem subcellsSubstitutesEveryCell : Obligations.SubcellsSubstitutesEveryCell := by
  unfold Obligations.SubcellsSubstitutesEveryCell
  intro s hb hg
  exact ⟨subCells s.cfg.sbox s.sv, exec_setSv rfl rfl hb hg rfl, cell_subCells s.cfg.sbox s.sv⟩

/-- Settles O32: its one micro-step is `shiftRows`, and the sum of two columns in `Fin 4` is their sum modulo 4. -/
theorem shiftrowsRotatesRowRLeftByR : Obligations.ShiftrowsRotatesRowRLeftByR := by
  unfold Obligations.ShiftrowsRotatesRowRLeftByR
  intro s hb hg
  exact ⟨shiftRows s.sv, exec_setSv rfl rfl hb hg rfl, fun r c _ => cell_shiftRows s.sv r c⟩

/-- Settles O33: its one micro-step is `mixColumns`, whose cells are the sums of R108. -/
theorem mixcolsMultipliesEveryColumnByTheMatrix : Obligations.MixcolsMultipliesEveryColumnByTheMatrix := by
  unfold Obligations.MixcolsMultipliesEveryColumnByTheMatrix
  intro s hb hg
  exact ⟨mixColumns s.cfg.mc s.sv, exec_setSv rfl rfl hb hg rfl, cell_mixColumns s.cfg.mc s.sv⟩

end Sys2Proof.Machine
end

section
/-! PROOFS. AddConstants: the constant block ACV(r) that it XORs into the state (O55), and the ADDCONST command (O30). -/

namespace Sys2Proof.Machine

/-! ### AddConstants as one XOR (R121, R122) -/

theorem addConstants_eq_xor (rc : List Nat) (k : Nat) (S : Block) :
    addConstants rc k S = S ^^^ ofCells (constantCell (rcAt rc k)) :=
  block_ext fun r c => by rw [cell_addConstants, cell_xor, cell_ofCells]

theorem addConstants_addConstants (rc : List Nat) (k : Nat) (S : Block) :
    addConstants rc k (addConstants rc k S) = S := by
  simp only [addConstants_eq_xor, BitVec.xor_assoc, BitVec.xor_self, BitVec.xor_zero]

/-- The block of the round constants is ACV of R121, which writes the two zero cells that end a row as one byte: as numbers, both sides are
the same nibbles shifted to the same places. -/
theorem ofCells_constantCell (rc : BitVec 6) :
    let hi : Nibble := (rc.extractLsb' 3 3).setWidth 4
    let lo : Nibble := (rc.extractLsb' 0 3).setWidth 4
    ofCells (constantCell rc) =
      0x0#4 ++ hi ++ 0x00#8 ++ 0x1#4 ++ lo ++ 0x00#8 ++ 0x2#4 ++ hi ++ 0x00#8 ++ 0x3#4 ++ lo ++ 0x00#8 := by
  intro hi lo
  have hrows : ofCells (constantCell rc) =
      (0x0#4 ++ hi ++ 0x0#4 ++ 0x0#4) ++ (0x1#4 ++ lo ++ 0x0#4 ++ 0x0#4) ++
        (0x2#4 ++ hi ++ 0x0#4 ++ 0x0#4) ++ (0x3#4 ++ lo ++ 0x0#4 ++ 0x0#4) := rfl
  rw [hrows]
  apply BitVec.eq_of_toNat_eq
  simp only [BitVec.toNat_append]
  simp [Nat.shiftLeft_or_distrib, ← Nat.shiftLeft_add, Nat.or_assoc]

/-- Settles O55: AddConstants is the XOR with one block, and an XOR done twice cancels. -/
theorem addConstantsXorsOneConstantBlock : Obligations.AddConstantsXorsOneConstantBlock := by
  unfold Obligations.AddConstantsXorsOneConstantBlock
  exact fun rc r S => ⟨by rw [addConstants_eq_xor, ofCells_constantCell], addConstants_addConstants rc r S⟩

/-! ### The command ADDCONST (R120, R123) -/

/-- Settles O30: its one micro-step is `addConstants`, whose constant is that of R120 in each of the seven cells and 0 in the other nine. -/
theorem addconstXorsTheRoundConstantIntoSevenCells : Obligations.AddconstXorsTheRoundConstantIntoSevenCells := by
  unfold Obligations.AddconstXorsTheRoundConstantIntoSevenCells
  intro s r hb hg hr
  have hwf : (Instr.addconst r).wf = true := decide_eq_true hr
  have hcell := cell_addConstants s.cfg.rc r.toNat s.sv
  have hkept {i c : Fin 4} (h0 : constantCell (rcAt s.cfg.rc r.toNat) i c = 0#4) :
      cell (addConstants s.cfg.rc r.toNat s.sv) i c = cell s.sv i c := by rw [hcell, h0, BitVec.xor_zero]
  refine ⟨addConstants s.cfg.rc r.toNat s.sv, exec_setSv hwf rfl hb hg rfl, hcell 1 0, hcell 2 0, hcell 3 0,
    hcell 0 1, hcell 1 1, hcell 2 1, hcell 3 1, hkept rfl, fun q => ?_⟩
  fin_cases q <;> exact ⟨hkept rfl, hkept rfl⟩

end Sys2Proof.Machine
end

section
/-! PROOFS. Key addition: the subkeys of the three schedules and the XOR with them (O56), and the ADDKEY command (O29). -/

namespace Sys2Proof.Machine

/-! ### The subkeys of each schedule (R133, R135) -/

/-- Five boundaries use 80 key nibbles, which is four times round the key. -/
theorem subkeyNibble_ledCyclic_add_five (kv : Key) (g i : Nat) :
    subkeyNibble .ledCyclic kv (g + 5) i = subkeyNibble .ledCyclic kv g i := by
  have hpos : (16 * (g + 5) + i) % 20 = (16 * g + i) % 20 := by omega
  simp only [subkeyNibble, hpos]

theorem subkey_ledCyclic_add_five (kv : Key) (g : Nat) : subkey .ledCyclic kv (g + 5) = subkey .ledCyclic kv g := by
  simp only [subkey, subkeyNibble_ledCyclic_add_five]

theorem subkeyNibble_ledCyclic_zero (kv : Key) {i : Nat} (hi : i < 16) :
    subkeyNibble .ledCyclic kv 0 i = keyNibble kv i := by
  have hpos : (16 * 0 + i) % 20 = i := by omega
  simp only [subkeyNibble, hpos]

theorem subkeyNibble_ledCyclic_four (kv : Key) {i : Nat} (hi : i < 16) :
    subkeyNibble .ledCyclic kv 4 i = keyNibble kv (i + 4) := by
  have hpos : (16 * 4 + i) % 20 = i + 4 := by omega
  simp only [subkeyNibble, hpos]

theorem subkeyNibble_doc46_even (kv : Key) {g : Nat} (hg : g % 2 = 0) (i : Nat) :
    subkeyNibble .doc46 kv g i = keyNibble kv i ^^^ keyNibble kv (i + 4) := by
  simp only [subkeyNibble, if_pos hg, keyHalf0, keyHalf1]

theorem subkeyNibble_doc46_odd (kv : Key) {g : Nat} (hg : g % 2 = 1) (i : Nat) :
    subkeyNibble .doc46 kv g i = keyNibble kv (i + 4) := by
  simp [subkeyNibble, hg, keyHalf1]

theorem subkeyNibble_alternate_even (kv : Key) {g : Nat} (hg : g % 2 = 0) (i : Nat) :
    subkeyNibble .alternate kv g i = keyNibble kv i := by
  simp only [subkeyNibble, if_pos hg, keyHalf0]

theorem subkeyNibble_alternate_odd (kv : Key) {g : Nat} (hg : g % 2 = 1) (i : Nat) :
    subkeyNibble .alternate kv g i = keyNibble kv (i + 4) := by
  simp [subkeyNibble, hg, keyHalf1]

/-- Every schedule only selects and XORs key nibbles (R130), so the all-zero key has zero subkeys. -/
theorem subkeyNibble_zero_key (ks : KeySchedule) (g i : Nat) : subkeyNibble ks 0#80 g i = 0#4 := by
  cases ks <;> simp [subkeyNibble, keyHalf0, keyHalf1, keyNibble]

/-! ### AddRoundKey as one XOR (R131) -/

theorem addRoundKey_eq_xor (ks : KeySchedule) (kv : Key) (g : Nat) (S : Block) :
    addRoundKey ks kv g S = S ^^^ subkey ks kv g :=
  block_ext fun r c => by rw [cell_addRoundKey, cell_xor, subkey, cell_ofCells]

theorem addRoundKey_addRoundKey (ks : KeySchedule) (kv : Key) (g : Nat) (S : Block) :
    addRoundKey ks kv g (addRoundKey ks kv g S) = S := by
  simp only [addRoundKey_eq_xor, BitVec.xor_assoc, BitVec.xor_self, BitVec.xor_zero]

theorem addRoundKey_zero_key (ks : KeySchedule) (g : Nat) (S : Block) : addRoundKey ks 0#80 g S = S :=
  block_ext fun r c => by rw [cell_addRoundKey, subkeyNibble_zero_key, BitVec.xor_zero]

/-- Settles O56: the subkeys by the schedule and the parity of the boundary, then AddRoundKey as the XOR with one block. -/
theorem keySchedulesHaveTheirStatedProperties : Obligations.KeySchedulesHaveTheirStatedProperties := by
  unfold Obligations.KeySchedulesHaveTheirStatedProperties
  exact fun kv g i S ks => ⟨subkey_ledCyclic_add_five kv g,
    fun hi => ⟨subkeyNibble_ledCyclic_zero kv hi, subkeyNibble_ledCyclic_four kv hi⟩,
    fun hg => subkeyNibble_doc46_even kv hg i, fun hg => subkeyNibble_doc46_odd kv hg i,
    fun hg => subkeyNibble_alternate_even kv hg i, fun hg => subkeyNibble_alternate_odd kv hg i,
    addRoundKey_eq_xor ks kv g S, addRoundKey_addRoundKey ks kv g S, addRoundKey_zero_key ks g S⟩

/-! ### The command ADDKEY (R137) -/

/-- Settles O29: its one micro-step is `addRoundKey`, which XORs into each cell the nibble that the configured schedule selects (R133). -/
theorem addkeyXorsTheSubkeyIntoState : Obligations.AddkeyXorsTheSubkeyIntoState := by
  unfold Obligations.AddkeyXorsTheSubkeyIntoState
  intro s g hb hgrant hg
  have hwf : (Instr.addkey g).wf = true := decide_eq_true hg
  refine ⟨addRoundKey s.cfg.keySchedule s.kv g.toNat s.sv, exec_setSv hwf rfl hb hgrant rfl, fun r c => ?_⟩
  rw [cell_addRoundKey]
  cases s.cfg.keySchedule <;> rfl

end Sys2Proof.Machine
end

section
/-! PROOFS. The sequencer left to itself: n turns of a busy engine are its next n micro-steps, and a running command completes with its last one (O41). -/

namespace Sys2Proof.Machine

/-! ### Micro-steps in a row -/

/-- The next n micro-steps of the command i, from its position `seq` on, with no completion (R151). -/
def State.microSteps (i : Instr) : Nat → State → State
  | 0, s => s
  | n + 1, s => State.microSteps i n (microStep i s.seq s).nextSeq

theorem microSteps_succ (i : Instr) (n : Nat) (s : State) : s.microSteps i (n + 1) = (microStep i s.seq s).nextSeq.microSteps i n := rfl

theorem microSteps_add (i : Instr) (m n : Nat) (s : State) : s.microSteps i (m + n) = (s.microSteps i m).microSteps i n := by
  induction m generalizing s with
  | zero => rw [Nat.zero_add]; rfl
  | succ m ih => rw [Nat.add_right_comm, microSteps_succ, ih, ← microSteps_succ]

@[simp] theorem microSteps_busy (i : Instr) (n : Nat) (s : State) : (s.microSteps i n).busy = s.busy := by
  induction n generalizing s with
  | zero => rfl
  | succ n ih => rw [microSteps_succ, ih]; simp

@[simp] theorem microSteps_cur (i : Instr) (n : Nat) (s : State) : (s.microSteps i n).cur = s.cur := by
  induction n generalizing s with
  | zero => rfl
  | succ n ih => rw [microSteps_succ, ih]; simp

/-- Every micro-step raises `seq` by 1 (R37). -/
@[simp] theorem microSteps_seq (i : Instr) (n : Nat) (s : State) : (s.microSteps i n).seq = s.seq + n := by
  induction n generalizing s with
  | zero => rfl
  | succ n ih => rw [microSteps_succ, ih]; simp; omega

/-! ### Turns of a busy engine -/

section
variable {s : State} {i : Instr} (hb : s.busy = true) (hc : s.cur = some i)
include hb hc

/-- Before the command's end, n turns of the engine are n micro-steps. -/
theorem advance_eq_microSteps {n : Nat} (hn : s.seq + n < nsteps i) : s.advance n = s.microSteps i n := by
  induction n generalizing s with
  | zero => rfl
  | succ n ih =>
    rw [advance_succ, engineStep_middle hb hc (by omega), microSteps_succ]
    exact ih (by simpa using hb) (by simpa using hc) (by simp; omega)

/-- The micro-steps that the command still has complete it (R154). -/
theorem advance_to_end (hs : s.seq < nsteps i) :
    s.advance (nsteps i - s.seq) = (s.microSteps i (nsteps i - s.seq)).complete := by
  obtain ⟨n, hn⟩ : ∃ n, nsteps i - s.seq = n + 1 := ⟨nsteps i - s.seq - 1, by omega⟩
  have hlast := engineStep_last (s := s.microSteps i n) (by simpa using hb) (by simpa using hc) (by simp; omega)
  rw [hn, advance_add, advance_eq_microSteps hb hc (by omega), microSteps_add]
  exact hlast

end

/-! ### Steps of the machine with no turn left -/

/-- With no turn left, k steps of the machine are k turns of the engine (R153). -/
theorem run_alone {s : State} (hcfg : configOk s.cfg = true) (hi : s.inputs = []) (k : Nat) :
    Host.Core.run core k s = .next (s.advance k) := by
  induction k generalizing s with
  | zero => rfl
  | succ k ih =>
    have hout := engineStep_sameOutside s
    have hstep : core.step s = .next s.engineStep := step_alone hcfg hi
    simp only [Host.Core.run, hstep]
    exact ih (hout.cfg ▸ hcfg) (hout.inputs ▸ hi)

/-- Settles O41: the invariant bounds `seq`, so the turns of the engine are micro-steps up to the last one, which completes the command. -/
theorem busyEngineCompletesAfterItsRemainingMicroSteps : Obligations.BusyEngineCompletesAfterItsRemainingMicroSteps := by
  unfold Obligations.BusyEngineCompletesAfterItsRemainingMicroSteps
  intro s i h hcfg hi hc
  have hb : s.busy = true := by rw [h.busy, hc]; rfl
  obtain ⟨-, -, -, hseq⟩ := h.running i hc
  refine ⟨⟨_, run_alone hcfg hi _, ?_⟩, fun k hk => ⟨_, run_alone hcfg hi k, ?_⟩⟩
  · rw [advance_to_end hb hc hseq]
    exact ⟨rfl, rfl, rfl⟩
  · rw [advance_eq_microSteps hb hc (by omega)]
    exact ⟨by simpa using hb, by simpa using hc⟩

end Sys2Proof.Machine
end

section
/-! PROOFS. No host access disturbs a running command (O42): while busy, every event but a reset leaves the engine's data and sequencer alone. -/

namespace Sys2Proof.Machine

/-- From s, the turn goes on: its event leaves the engine's data and sequencer alone, and the engine then takes the turn's grant. -/
def LeavesEngineAlone (s : State) (turn : Host.Outcome State Fault Refusal) : Prop :=
  ∃ u, s.SameData u ∧ u.grant = s.grant ∧ turn = .next u.runGrant

/-- The engine's turns read neither the flags and enables, nor the reset input, nor the outside world. -/
theorem sameData_frame (s : State) (done err : Bool) (errCode : ErrCode) (doneIe errIe inReset : Bool) (inputs : List Turn) (grant : Nat)
    (responses : List Word) (draws : Nat) :
    s.SameData { s with done := done, err := err, errCode := errCode, doneIe := doneIe, errIe := errIe, inReset := inReset,
                        inputs := inputs, grant := grant, responses := responses, draws := draws } :=
  ⟨rfl, rfl, rfl, rfl, rfl, rfl, rfl, rfl, rfl⟩

/-- A read answers a word and leaves the engine alone (R56). -/
theorem readReg_leavesEngineAlone (r : Reg) (s : State) : LeavesEngineAlone s (.next (s.readReg r).runGrant) := by
  unfold State.readReg
  split
  · exact ⟨s.respondFree _, sameData_frame .., rfl, rfl⟩
  · exact ⟨s.respond _, sameData_frame .., rfl, rfl⟩

/-- While busy, a write of CTRL, STATE or KEY is rejected, and a write of another register stores at most flags and enables (R172, R174). -/
theorem busWrite_leavesEngineAlone {s : State} (hb : s.busy = true) (r : Reg) (v : Word) : LeavesEngineAlone s (busWrite r v s) := by
  have hrejected {turn} (h : turn = .next (s.raiseError .busyWrite).runGrant) : LeavesEngineAlone s turn :=
    ⟨s.raiseError .busyWrite, sameData_frame .., rfl, h⟩
  have hdata (f) : s.writeData f = s.raiseError .busyWrite := if_pos hb
  have hignored : LeavesEngineAlone s (.next s.runGrant) := ⟨s, sameData_frame .., rfl, rfl⟩
  cases r
  case ctrl => exact hrejected (if_pos hb)
  case status => exact ⟨s.writeStatus v, sameData_frame .., rfl, rfl⟩
  case irqen => exact ⟨s.writeIrqen v, sameData_frame .., rfl, rfl⟩
  case progress => exact hignored
  case gfres => exact hignored
  case reserved => exact hignored
  all_goals exact hrejected (by rw [busWrite, hdata])

/-- An event that goes on while busy, a reset apart, leaves the engine alone. -/
theorem performEvent_leavesEngineAlone {e : Event} {s t : State} (hb : s.busy = true) (he : e ≠ .assertReset)
    (h : performEvent e s = .next t) : LeavesEngineAlone s (.next t) := by
  rw [← h]
  cases e <;> simp only [performEvent] at h ⊢
  case quiet => exact ⟨s, sameData_frame .., rfl, rfl⟩
  case assertReset => exact absurd rfl he
  case releaseReset => exact ⟨s.releaseReset, sameData_frame .., rfl, rfl⟩
  case read a w =>
    split at h <;> cases h
    exact readReg_leavesEngineAlone _ s
  case write a w v =>
    split at h <;> try cases h
    exact busWrite_leavesEngineAlone hb _ v

/-- Settles O42: the engine reads only what the event left alone, so its micro-steps of the turn are those that it takes from s. -/
theorem hostCannotDisturbARunningCommand : Obligations.HostCannotDisturbARunningCommand := by
  unfold Obligations.HostCannotDisturbARunningCommand
  intro s t e n rest hb hi he hstep
  obtain ⟨hcfg, -⟩ := step_cases hstep
  rw [step_turn hcfg hi] at hstep
  obtain ⟨u, hsame, hgrant, ht⟩ := performEvent_leavesEngineAlone (by exact hb) he hstep
  have hdata : s.SameData { u with grant := 0 } :=
    ⟨hsame.cfg, hsame.sv, hsame.kv, hsame.gfres, hsame.rcnt, hsame.kcnt, hsame.busy, hsame.cur, hsame.seq⟩
  have hrun : t = ({ u with grant := 0 } : State).advance n := by
    injection ht with ht
    rw [ht, State.runGrant, hgrant]
  rw [hrun]
  have hend := advance_sameData hdata n
  exact ⟨hend.sv, hend.kv, hend.gfres, hend.rcnt, hend.kcnt, hend.busy, hend.cur, hend.seq⟩

end Sys2Proof.Machine
end

section
/-! PROOFS. NOP, ROUND, STEP and ENCRYPT from acceptance to completion (O27, O34, O35, O36). -/

namespace Sys2Proof.Machine

/-- A legal command that gets its turns runs all its micro-steps and completes (R154). -/
theorem exec_completes {i : Instr} {s : State} (hwf : i.wf = true) (hb : s.busy = false) (hg : nsteps i ≤ s.grant) :
    exec i s = .next (State.microSteps i (nsteps i) { s.accept i with grant := 0 }).complete := by
  obtain ⟨n, hn⟩ := Nat.exists_eq_add_of_le hg
  have hend := advance_to_end (s := { s.accept i with grant := 0 }) (i := i) rfl rfl (nsteps_pos i)
  have hseq : nsteps i - State.seq { s.accept i with grant := 0 } = nsteps i := rfl
  rw [hseq] at hend
  rw [exec_eq_issue, issue_accept hb hwf, State.runGrant, accept_grant, hn, advance_add, hend, advance_idle rfl]

/-- Settles O27: its one micro-step is `microNop`. -/
theorem nopCompletesDoingNothing : Obligations.NopCompletesDoingNothing := by
  unfold Obligations.NopCompletesDoingNothing
  intro s hb hg
  rw [exec_completes (i := .nop) rfl hb hg]
  rfl

/-- Settles O34: its one micro-step is `cipherRound`, which is R145's composition. -/
theorem roundAppliesTheFourSubstepsInOrder : Obligations.RoundAppliesTheFourSubstepsInOrder := by
  unfold Obligations.RoundAppliesTheFourSubstepsInOrder
  intro s r hb hg hr
  exact exec_setSv (decide_eq_true hr) rfl hb hg rfl

/-- Settles O35: its five micro-steps are the four rounds and the key addition of the group. -/
theorem stepRunsOneRoundGroup : Obligations.StepRunsOneRoundGroup := by
  unfold Obligations.StepRunsOneRoundGroup
  intro s g hb hg hs
  rw [exec_completes (i := .step g) (decide_eq_true hs) hb hg]
  simp [nsteps, State.microSteps, microStep, microStepGroup, State.accept, State.roundStep, State.keyStep, State.setSv, State.nextSeq,
    State.complete]

/-! ### ENCRYPT -/

/-- The four rounds of group g are the micro-steps 5g+1 to 5g+4 of ENCRYPT (R150). -/
theorem microEncrypt_round {g j : Nat} (hj : j < 4) (s : State) :
    microEncrypt (5 * g + 1 + j) s = (s.roundStep (4 * g + j)).bumpRcnt := by
  have hdiv : (5 * g + 1 + j - 1) / 5 = g := by omega
  have hmod : (5 * g + 1 + j - 1) % 5 = j := by omega
  rw [microEncrypt, if_neg (by omega), hdiv, hmod, if_pos hj]

/-- The key addition that ends group g is micro-step 5g+5 of ENCRYPT (R150). -/
theorem microEncrypt_key (g : Nat) (s : State) : microEncrypt (5 * g + 5) s = (s.keyStep (g + 1)).bumpKcnt := by
  have hdiv : (5 * g + 5 - 1) / 5 = g := by omega
  have hmod : (5 * g + 5 - 1) % 5 = 4 := by omega
  rw [microEncrypt, if_neg (by omega), hdiv, hmod, if_neg (by decide)]

/-- The first j micro-steps of group g of ENCRYPT: rounds from 4g on, counted in RCNT (R147 step 4, R152). -/
theorem microSteps_encrypt_rounds {s : State} {g : Nat} (hs : s.seq = 5 * g + 1) {j : Nat} (hj : j ≤ 4) :
    s.microSteps .encrypt j =
      { s with sv := (List.range j).foldl (fun S q => cipherRound s.cfg (4 * g + q) S) s.sv, rcnt := s.rcnt + BitVec.ofNat 6 j,
               seq := 5 * g + 1 + j } := by
  induction j with
  | zero => simp [State.microSteps, ← hs]
  | succ j ih =>
    rw [microSteps_add, ih (by omega)]
    simp only [State.microSteps, microStep, microEncrypt_round (show j < 4 by omega)]
    simp [State.roundStep, State.setSv, State.bumpRcnt, State.nextSeq, List.range_succ, BitVec.ofNat_add, BitVec.add_assoc, Nat.add_assoc]

/-- The five micro-steps of group g of ENCRYPT: its four rounds and its key addition, counted in KCNT. -/
theorem microSteps_encrypt_group {s : State} {g : Nat} (hs : s.seq = 5 * g + 1) :
    s.microSteps .encrypt 5 =
      { s with sv := roundGroup s.cfg s.kv s.sv g, rcnt := s.rcnt + 4#6, kcnt := s.kcnt + 1#4, seq := 5 * (g + 1) + 1 } := by
  rw [microSteps_add .encrypt 4 1, microSteps_encrypt_rounds hs (Nat.le_refl 4)]
  simp only [State.microSteps, microStep, Nat.add_assoc, microEncrypt_key]
  rfl

/-- What the first k groups of ENCRYPT make of a state: STATE, PROGRESS and `seq` move. -/
def State.afterGroups (s : State) (k : Nat) : State :=
  { s with sv := (List.range k).foldl (roundGroup s.cfg s.kv) s.sv, rcnt := s.rcnt + BitVec.ofNat 6 (4 * k),
           kcnt := s.kcnt + BitVec.ofNat 4 k, seq := 5 * k + 1 }

theorem microSteps_encrypt_groups {s : State} (hs : s.seq = 1) (k : Nat) : s.microSteps .encrypt (5 * k) = s.afterGroups k := by
  induction k with
  | zero => simp [State.afterGroups, State.microSteps, ← hs]
  | succ k ih =>
    rw [Nat.mul_succ, microSteps_add, ih, microSteps_encrypt_group (s := s.afterGroups k) (g := k) rfl]
    simp [State.afterGroups, List.range_succ, BitVec.ofNat_add, BitVec.add_assoc, Nat.mul_add]

/-- Settles O36: after the key addition of micro-step 0, twelve groups of five micro-steps. -/
theorem encryptLeavesTheCiphertextInState : Obligations.EncryptLeavesTheCiphertextInState := by
  unfold Obligations.EncryptLeavesTheCiphertextInState
  intro s hb hg
  rw [exec_completes (i := .encrypt) rfl hb hg, show nsteps .encrypt = 1 + 5 * 12 from rfl, microSteps_add, microSteps_encrypt_groups rfl]
  rfl

end Sys2Proof.Machine
end

section
/-! PROOFS. The table of micro-steps (O39), and how ENCRYPT counts in PROGRESS (O40). -/

namespace Sys2Proof.Machine

section
variable {s : State} {i : Instr} (hb : s.busy = true) (hc : s.cur = some i)
include hb hc

/-- A turn of a busy engine leaves the data that its micro-step leaves, completed or not, and raises `seq` by 1 (R37). -/
theorem engineStep_data :
    s.engineStep.sv = (microStep i s.seq s).sv ∧ s.engineStep.gfres = (microStep i s.seq s).gfres ∧
      s.engineStep.rcnt = (microStep i s.seq s).rcnt ∧ s.engineStep.kcnt = (microStep i s.seq s).kcnt ∧
      s.engineStep.seq = s.seq + 1 := by
  rw [engineStep_busy hb hc, State.completeIfLast]
  split <;> exact ⟨rfl, rfl, rfl, rfl, by simp⟩

/-- A turn of a busy engine completes its command exactly when it takes the last micro-step (R154). -/
theorem engineStep_control (hd : s.done = false) :
    (s.seq + 1 < nsteps i → s.engineStep.busy = true ∧ s.engineStep.cur = some i ∧ s.engineStep.done = false) ∧
      (nsteps i ≤ s.seq + 1 → s.engineStep.busy = false ∧ s.engineStep.cur = none ∧ s.engineStep.done = true) := by
  refine ⟨fun h => ?_, fun h => ?_⟩
  · rw [engineStep_middle hb hc h]
    simp [hb, hc, hd]
  · rw [engineStep_last hb hc h]
    exact ⟨rfl, rfl, rfl⟩

end

/-- Settles O39: the turn of the engine is micro-step `seq` of the command, row by row of R150's table. -/
theorem microStepsFollowTheTable : Obligations.MicroStepsFollowTheTable := by
  unfold Obligations.MicroStepsFollowTheTable
  intro s i hcfg hi hb hc hd
  obtain ⟨hsv, hgfres, -, -, hseq⟩ := engineStep_data hb hc
  refine ⟨_, step_alone hcfg hi, hseq, (engineStep_sameOutside s).kv, ?_, hgfres.trans ?_, hsv.trans ?_⟩
  · have hcontrol := engineStep_control hb hc hd
    cases i <;> exact hcontrol
  all_goals
    cases i <;> try rfl
    case encrypt => simp only [microStep, microEncrypt]; split <;> [rfl; (split <;> rfl)]
    case step g => simp only [microStep, microStepGroup]; split <;> rfl

/-- Settles O40: PROGRESS holds the counts of R150's table before and after the micro-step. -/
theorem encryptCountsItsRoundsAndKeyAdditions : Obligations.EncryptCountsItsRoundsAndKeyAdditions := by
  unfold Obligations.EncryptCountsItsRoundsAndKeyAdditions
  intro s h hcfg hi hc
  have hb : s.busy = true := by rw [h.busy, hc]; rfl
  obtain ⟨hdone, -, -, hseq⟩ := h.running .encrypt hc
  obtain ⟨hr, hk⟩ := h.progress hc
  obtain ⟨hr', hk'⟩ := microStep_encrypt_countsAt hseq (h.progress hc)
  obtain ⟨-, -, hrcnt, hkcnt, hseq'⟩ := engineStep_data hb hc
  rw [← hrcnt] at hr'
  rw [← hkcnt] at hk'
  simp only [roundsBefore, keysBefore] at hr hk hr' hk'
  refine ⟨_, step_alone hcfg hi, ?_, by omega, fun hend => ?_⟩
  · split
    · exact ⟨by omega, BitVec.eq_of_toNat_eq (by omega)⟩
    · exact ⟨by omega, BitVec.eq_of_toNat_eq (by omega)⟩
  · have hlast : 61 ≤ s.seq + 1 := by
      by_contra hlt
      obtain ⟨-, -, hgoes⟩ := (engineStep_control hb hc hdone).1 (Nat.lt_of_not_le hlt)
      simp [hgoes] at hend
    have hseq : s.seq < 61 := hseq
    exact ⟨BitVec.eq_of_toNat_eq (by simp; omega), BitVec.eq_of_toNat_eq (by simp; omega)⟩

end Sys2Proof.Machine
end

section
/-! PROOFS. Encrypt as a function: the schedule under the all-zero key (O57), and bijectivity (O58). -/

namespace Sys2Proof.Machine

/-- Under the all-zero key every key addition is the identity, whatever the schedule (R135, R149). -/
theorem roundGroup_zero_key (cfg : Config) (ks ks' : KeySchedule) :
    roundGroup { cfg with keySchedule := ks } 0#80 = roundGroup { cfg with keySchedule := ks' } 0#80 := by
  funext S g
  simp only [roundGroup, addRoundKey_zero_key]
  rfl

/-- Settles O57: the round groups agree, and the key addition at boundary 0 is the identity too. -/
theorem zeroKeyMakesTheScheduleIrrelevant : Obligations.ZeroKeyMakesTheScheduleIrrelevant := by
  unfold Obligations.ZeroKeyMakesTheScheduleIrrelevant
  intro cfg ks ks' sv
  rw [cipherEncrypt, cipherEncrypt, addRoundKey_zero_key, addRoundKey_zero_key, roundGroup_zero_key cfg ks ks']

/-! ### Bijectivity -/

theorem addConstants_bijective (rc : List Nat) (k : Nat) : Function.Bijective (addConstants rc k) :=
  Function.Involutive.bijective (addConstants_addConstants rc k)

theorem addRoundKey_bijective (ks : KeySchedule) (kv : Key) (g : Nat) : Function.Bijective (addRoundKey ks kv g) :=
  Function.Involutive.bijective (addRoundKey_addRoundKey ks kv g)

/-- A rotation is undone by the three further ones that make its period of four (R105). -/
theorem shiftRows_bijective : Function.Bijective shiftRows :=
  Function.bijective_iff_has_inverse.mpr ⟨fun S => shiftRows (shiftRows (shiftRows S)),
    fun S => (shiftRowsHasPeriodFourAndAnInverse S).1, fun S => (shiftRowsHasPeriodFourAndAnInverse S).1⟩

/-- The entry in row j, column l of the product of two matrices over GF(2^4). -/
def mcProductAt (mc' mc : List (List Nibble)) (j l : Fin 4) : Nibble :=
  gfMul (mcAt mc' j 0) (mcAt mc 0 l) ^^^ gfMul (mcAt mc' j 1) (mcAt mc 1 l)
    ^^^ gfMul (mcAt mc' j 2) (mcAt mc 2 l) ^^^ gfMul (mcAt mc' j 3) (mcAt mc 3 l)

/-- MixColumnsSerial by two matrices in turn multiplies every column by their product. -/
theorem cell_mixColumns_mixColumns (mc' mc : List (List Nibble)) (S : Block) (j c : Fin 4) :
    cell (mixColumns mc' (mixColumns mc S)) j c =
      gfMul (mcProductAt mc' mc j 0) (cell S 0 c) ^^^ gfMul (mcProductAt mc' mc j 1) (cell S 1 c)
        ^^^ gfMul (mcProductAt mc' mc j 2) (cell S 2 c) ^^^ gfMul (mcProductAt mc' mc j 3) (cell S 3 c) := by
  simp only [cell_mixColumns, mcProductAt, gfMul_xor_right, gfMul_xor_left, gfMul_assoc]
  ac_rfl

/-- A left inverse of a matrix undoes its MixColumnsSerial. -/
theorem mixColumns_leftInverse {mc' mc : List (List Nibble)}
    (h : ∀ j l, mcProductAt mc' mc j l = if j = l then 1#4 else 0#4) : Function.LeftInverse (mixColumns mc') (mixColumns mc) := by
  intro S
  refine block_ext fun j c => ?_
  rw [cell_mixColumns_mixColumns]
  simp only [h]
  fin_cases j <;> simp [gfMul_comm 0#4]

/-- The inverse of the default matrix over GF(2^4). -/
def defaultMatrixInverse : List (List Nibble) :=
  [[0xC#4, 0xC#4, 0xD#4, 0x4#4], [0x3#4, 0x8#4, 0x4#4, 0x5#4], [0x7#4, 0x6#4, 0x2#4, 0xE#4], [0xD#4, 0x9#4, 0x9#4, 0xD#4]]

theorem mixColumns_default_bijective : Function.Bijective (mixColumns defaultMatrix) :=
  Finite.injective_iff_bijective.mp (mixColumns_leftInverse (mc' := defaultMatrixInverse) (by decide)).injective

/-- Each round with the default S-box and matrix is a composition of bijections (R146). -/
theorem cipherRound_bijective {cfg : Config} (hsbox : cfg.sbox = defaultSbox) (hmc : cfg.mc = defaultMatrix) (r : Nat) :
    Function.Bijective (cipherRound cfg r) := by
  have hsub : Function.Bijective (subCells cfg.sbox) := subCellsIsABijection _ (hsbox ▸ by decide)
  have hmix : Function.Bijective (mixColumns cfg.mc) := hmc ▸ mixColumns_default_bijective
  exact hmix.comp (shiftRows_bijective.comp (hsub.comp (addConstants_bijective cfg.rc r)))

theorem roundGroup_bijective {cfg : Config} (hround : ∀ r, Function.Bijective (cipherRound cfg r)) (kv : Key) (g : Nat) :
    Function.Bijective fun S => roundGroup cfg kv S g :=
  (addRoundKey_bijective cfg.keySchedule kv (g + 1)).comp
    ((hround (4 * g + 3)).comp ((hround (4 * g + 2)).comp ((hround (4 * g + 1)).comp (hround (4 * g)))))

/-- A fold of bijections is a bijection of its start value. -/
theorem foldl_bijective {α β : Type} {f : β → α → β} (hf : ∀ a, Function.Bijective (f · a)) (l : List α) :
    Function.Bijective fun b => l.foldl f b := by
  induction l with
  | nil => exact Function.bijective_id
  | cons a l ih => exact ih.comp (hf a)

theorem cipherEncrypt_eq_comp (cfg : Config) (kv : Key) :
    cipherEncrypt cfg kv = (fun S => (List.range 12).foldl (roundGroup cfg kv) S) ∘ addRoundKey cfg.keySchedule kv 0 := by
  funext sv
  rw [cipherEncrypt, Function.comp_apply]

theorem cipherEncrypt_bijective {cfg : Config} (hround : ∀ r, Function.Bijective (cipherRound cfg r)) (kv : Key) :
    Function.Bijective (cipherEncrypt cfg kv) := by
  rw [cipherEncrypt_eq_comp]
  exact (foldl_bijective (roundGroup_bijective hround kv) (List.range 12)).comp (addRoundKey_bijective ..)

/-- Settles O58: the rounds and the key additions are bijections, and so is every composition of them. -/
theorem encryptIsABijectionForEveryKey : Obligations.EncryptIsABijectionForEveryKey := by
  unfold Obligations.EncryptIsABijectionForEveryKey
  intro ks kv
  have hround := @cipherRound_bijective { defaultConfig with keySchedule := ks } rfl rfl
  exact ⟨hround, cipherEncrypt_bijective hround kv⟩

end Sys2Proof.Machine
end

section
/-! PROOFS. A command and its sequence of smaller commands leave the same STATE, KEY and GFRES (O59). -/

namespace Sys2Proof.Machine

/-! ### What a run of commands computes -/

/-- From the idle state s, a run has ended in the idle state t with x in STATE; KEY, GFRES and the configuration are as they were. -/
structure State.EndsWith (s : State) (x : Block) (t : State) : Prop where
  sv : t.sv = x
  cfg : t.cfg = s.cfg
  kv : t.kv = s.kv
  gfres : t.gfres = s.gfres
  busy : t.busy = false
  done : t.done = true

/-- On every idle engine the commands run to their end, with f of the configuration, KEY and STATE in STATE. -/
def Computes (is : List Instr) (f : Config → Key → Block → Block) : Prop :=
  ∀ s : State, s.busy = false → ∃ t, runCommands is s = .next t ∧ s.EndsWith (f s.cfg s.kv s.sv) t

theorem runCommands_append {is js : List Instr} {s t : State} (h : runCommands is s = .next t) :
    runCommands (is ++ js) s = runCommands js t := by
  induction is generalizing s with
  | nil => cases h; rfl
  | cons i is ih =>
    rw [runCommands] at h
    rw [List.cons_append, runCommands]
    split at h
    · exact ih h
    · cases h
    · cases h

/-- One run after the other computes the composition. -/
theorem Computes.append {is js : List Instr} {f g : Config → Key → Block → Block} (hf : Computes is f) (hg : Computes js g) :
    Computes (is ++ js) fun cfg kv x => g cfg kv (f cfg kv x) := by
  intro s hb
  obtain ⟨t, ht, hst⟩ := hf s hb
  obtain ⟨u, hu, htu⟩ := hg t hst.busy
  refine ⟨u, (runCommands_append ht).trans hu, ?_, htu.cfg.trans hst.cfg, htu.kv.trans hst.kv, htu.gfres.trans hst.gfres, htu.busy, htu.done⟩
  rw [htu.sv, hst.sv, hst.cfg, hst.kv]

/-- Two runs that compute one function cannot be told apart in STATE, KEY and GFRES. -/
theorem Computes.agree {is js : List Instr} {f : Config → Key → Block → Block} (hf : Computes is f) (hg : Computes js f)
    {s : State} (hb : s.busy = false) :
    ∃ t u, runCommands is s = .next t ∧ runCommands js s = .next u ∧
      t.done = true ∧ u.done = true ∧ t.sv = u.sv ∧ t.kv = u.kv ∧ t.gfres = u.gfres := by
  obtain ⟨t, ht, hst⟩ := hf s hb
  obtain ⟨u, hu, hsu⟩ := hg s hb
  exact ⟨t, u, ht, hu, hst.done, hsu.done, hst.sv.trans hsu.sv.symm, hst.kv.trans hsu.kv.symm, hst.gfres.trans hsu.gfres.symm⟩

/-! ### What each command computes -/

/-- A command that, given its turns, ends with f in STATE computes f. -/
theorem computes_of_exec {i : Instr} {f : Config → Key → Block → Block}
    (h : ∀ s : State, s.busy = false → s.grant = 61 → ∃ t, exec i s = .next t ∧ s.EndsWith (f s.cfg s.kv s.sv) t) : Computes [i] f := by
  intro s hb
  obtain ⟨t, ht, hst⟩ := h { s with grant := 61 } hb rfl
  exact ⟨t, by rw [runCommands, ht]; rfl, hst.sv, hst.cfg, hst.kv, hst.gfres, hst.busy, hst.done⟩

/-- A legal command whose one micro-step writes f to STATE computes f. -/
theorem computes_of_micro {i : Instr} {f : Config → Key → Block → Block} (hwf : i.wf = true) (hn : nsteps i = 1)
    (hmicro : ∀ s, microStep i 0 s = s.setSv (f s.cfg s.kv s.sv)) : Computes [i] f :=
  computes_of_exec fun _ hb hg => ⟨_, exec_setSv hwf hn hb (by omega) (hmicro _), rfl, rfl, rfl, rfl, rfl, rfl⟩

theorem computes_addconst {r : BitVec 6} (hr : r.toNat ≤ 47) : Computes [.addconst r] fun cfg _ => addConstants cfg.rc r.toNat :=
  computes_of_micro (decide_eq_true hr) rfl fun _ => rfl

theorem computes_subcells : Computes [.subcells] fun cfg _ => subCells cfg.sbox := computes_of_micro rfl rfl fun _ => rfl

theorem computes_shiftrows : Computes [.shiftrows] fun _ _ => shiftRows := computes_of_micro rfl rfl fun _ => rfl

theorem computes_mixcols : Computes [.mixcols] fun cfg _ => mixColumns cfg.mc := computes_of_micro rfl rfl fun _ => rfl

theorem computes_addkey {g : BitVec 4} {k : Nat} (hgk : g.toNat = k) (hk : k ≤ 12) :
    Computes [.addkey g] fun cfg kv => addRoundKey cfg.keySchedule kv k := by
  subst hgk
  exact computes_of_micro (decide_eq_true hk) rfl fun _ => rfl

theorem computes_round {r : BitVec 6} {k : Nat} (hrk : r.toNat = k) (hk : k ≤ 47) :
    Computes [.round r] fun cfg _ => cipherRound cfg k := by
  subst hrk
  exact computes_of_micro (decide_eq_true hk) rfl fun _ => rfl

theorem computes_step {g : BitVec 4} {k : Nat} (hgk : g.toNat = k) (hk : k ≤ 11) :
    Computes [.step g] fun cfg kv x => roundGroup cfg kv x k := by
  subst hgk
  exact computes_of_exec fun s hb hg => ⟨_, stepRunsOneRoundGroup s g hb (by omega) hk, rfl, rfl, rfl, rfl, rfl, rfl⟩

theorem computes_encrypt : Computes [.encrypt] cipherEncrypt :=
  computes_of_exec fun s hb hg => ⟨_, encryptLeavesTheCiphertextInState s hb (by omega), rfl, rfl, rfl, rfl, rfl, rfl⟩

/-! ### The sequences of smaller commands (R159) -/

theorem computes_substeps {r : BitVec 6} (hr : r.toNat ≤ 47) :
    Computes [.addconst r, .subcells, .shiftrows, .mixcols] fun cfg _ => cipherRound cfg r.toNat := by
  have hrun := (computes_addconst hr).append (computes_subcells.append (computes_shiftrows.append computes_mixcols))
  exact hrun

theorem computes_roundsAndKey {g : BitVec 4} (hg : g.toNat ≤ 11) :
    Computes [.round (BitVec.ofNat 6 (4 * g.toNat)), .round (BitVec.ofNat 6 (4 * g.toNat + 1)), .round (BitVec.ofNat 6 (4 * g.toNat + 2)),
        .round (BitVec.ofNat 6 (4 * g.toNat + 3)), .addkey (g + 1#4)] fun cfg kv x => roundGroup cfg kv x g.toNat := by
  have hround (k : Nat) (hk : k ≤ 47) : Computes [.round (BitVec.ofNat 6 k)] fun cfg _ => cipherRound cfg k :=
    computes_round (Nat.mod_eq_of_lt (by omega)) hk
  have hkey : Computes [.addkey (g + 1#4)] fun cfg kv => addRoundKey cfg.keySchedule kv (g.toNat + 1) :=
    computes_addkey (by rw [BitVec.toNat_add]; exact Nat.mod_eq_of_lt (by simp; omega)) (by omega)
  have hrun := (hround (4 * g.toNat) (by omega)).append ((hround (4 * g.toNat + 1) (by omega)).append
    ((hround (4 * g.toNat + 2) (by omega)).append ((hround (4 * g.toNat + 3) (by omega)).append hkey)))
  exact hrun

/-- The key addition at boundary 0, then the first n groups: ENCRYPT cut off after group n - 1. -/
theorem computes_keyAndSteps {n : Nat} (hn : n ≤ 12) :
    Computes (.addkey 0#4 :: (List.range n).map fun g => .step (BitVec.ofNat 4 g))
      fun cfg kv x => (List.range n).foldl (roundGroup cfg kv) (addRoundKey cfg.keySchedule kv 0 x) := by
  induction n with
  | zero => exact computes_addkey rfl (by decide)
  | succ n ih =>
    have hstep : Computes [.step (BitVec.ofNat 4 n)] fun cfg kv x => roundGroup cfg kv x n :=
      computes_step (Nat.mod_eq_of_lt (by omega)) (by omega)
    simpa [List.range_succ] using (ih (by omega)).append hstep

/-- Settles O59: each command computes the function that its sequence of smaller commands computes. -/
theorem commandsComposeFromSmallerCommands : Obligations.CommandsComposeFromSmallerCommands := by
  unfold Obligations.CommandsComposeFromSmallerCommands
  intro s hb
  exact ⟨fun r hr => (computes_round rfl hr).agree (computes_substeps hr) hb,
    fun g hg => (computes_step rfl hg).agree (computes_roundsAndKey hg) hb,
    computes_encrypt.agree (computes_keyAndSteps (Nat.le_refl 12)) hb⟩

end Sys2Proof.Machine
end

section
/-! PROOFS. Rejection and its order: commands and writes while busy (O37, O11), a write to CTRL (O10), and that a rejection commutes with the engine (O44). -/

namespace Sys2Proof.Machine

/-! ### A rejection and the engine touch disjoint fields (R177) -/

/-- A micro-step neither reads nor writes ERR and ERRCODE. -/
theorem microStep_raiseError (i : Instr) (k : Nat) (s : State) (c : ErrCode) :
    microStep i k (s.raiseError c) = (microStep i k s).raiseError c := by
  have hsame := microStep_sameData (t := s.raiseError c) (sameData_frame ..) i k
  rw [microStep_eq i k (s.raiseError c), hsame.sv, hsame.gfres, hsame.rcnt, hsame.kcnt, microStep_eq i k s]
  rfl

theorem completeIfLast_raiseError (i : Instr) (s : State) (c : ErrCode) :
    (s.raiseError c).completeIfLast i = (s.completeIfLast i).raiseError c := by
  simp only [State.completeIfLast, apply_ite (State.raiseError c)]
  rfl

/-- Settles O44: an idle engine does nothing, and a busy one takes a micro-step and may complete, each of which commutes with the rejection. -/
theorem rejectionAndMicroStepCommute : Obligations.RejectionAndMicroStepCommute := by
  unfold Obligations.RejectionAndMicroStepCommute State.engineStep
  intro s c
  rw [raiseError_busy, raiseError_cur]
  split
  · rw [← completeIfLast_raiseError, raiseError_seq, microStep_raiseError]
    rfl
  · rfl

/-! ### Rejection while busy (R171, R174) -/

/-- Settles O37: every command is issued, and a busy engine rejects what is issued. -/
theorem commandsWhileBusyAreRejected : Obligations.CommandsWhileBusyAreRejected := by
  unfold Obligations.CommandsWhileBusyAreRejected
  intro i s hb
  rw [exec_eq_issue, issue_busy hb]
  rfl

/-- A busy engine rejects the write of each register whose value the running command rests on, and of CTRL. -/
theorem busWrite_busy {r : Reg} {s : State} (h : r ∈ [Reg.ctrl, .stateHi, .stateLo, .keyHi, .keyMid, .keyLo]) (hb : s.busy = true) (v : Word) :
    busWrite r v s = .next (s.raiseError .busyWrite).runGrant := by
  have hdata (f) : s.writeData f = s.raiseError .busyWrite := if_pos hb
  obtain rfl | h := List.mem_cons.mp h
  · exact if_pos hb
  · fin_cases h <;> rw [busWrite, hdata]

/-! ### A write to CTRL (R171) -/

/-- An idle engine rejects a bad word with the decoder's code. -/
theorem ctrlWrite_error {s : State} {w : Word} {c : ErrCode} (hb : s.busy = false) (hd : decode w = .error c) :
    ctrlWrite w s = .next (s.raiseError c).runGrant := by
  simp [ctrlWrite, hb, hd]

/-- An idle engine accepts the command of a good word, which the decoder has found legal. -/
theorem ctrlWrite_accept {s : State} {w : Word} {i : Instr} (hb : s.busy = false) (hd : decode w = .command i) :
    ctrlWrite w s = .next (s.accept i).runGrant := by
  rw [ctrlWrite_command hb hd, exec_eq_issue, issue_accept hb (decode_command_wf hd)]

/-- Settles O10: the engine is busy, or idle with a bad word, or idle with a command. -/
theorem ctrlWriteIsAcceptedOrRejectedInOrder : Obligations.CtrlWriteIsAcceptedOrRejectedInOrder := by
  unfold Obligations.CtrlWriteIsAcceptedOrRejectedInOrder
  intro s w n rest hc hr hi
  rw [step_write (off := 0) hc hr (by decide) (by decide) hi]
  by_cases hb : s.busy = true
  · rw [if_pos hb]
    exact busWrite_busy (r := .ctrl) (by decide) (by exact hb) w
  · rw [if_neg hb]
    have hidle : s.busy = false := by simpa using hb
    cases hd : decode w with
    | error c => exact ctrlWrite_error (by exact hidle) hd
    | command i => exact ctrlWrite_accept (by exact hidle) hd

/-! ### What a turn leaves in ERR and ERRCODE -/

/-- The engine's granted micro-steps leave ERR and ERRCODE as the event left them. -/
theorem exists_step_errors {s u : State} (h : step s = .next u.runGrant) :
    ∃ t, step s = .next t ∧ t.err = u.err ∧ t.errCode = u.errCode :=
  ⟨_, h, (runGrant_sameOutside u).err, (runGrant_sameOutside u).errCode⟩

@[simp] theorem readReg_err (r : Reg) (s : State) : (s.readReg r).err = s.err := by
  unfold State.readReg; split <;> rfl

@[simp] theorem readReg_errCode (r : Reg) (s : State) : (s.readReg r).errCode = s.errCode := by
  unfold State.readReg; split <;> rfl

/-- A STATUS write keeps ERR and ERRCODE or clears both, by its bit 2 (R31). -/
theorem step_write_status_errors {s : State} {v : Word} {n : Nat} {rest : List Turn} (hc : configOk s.cfg = true) (hr : s.inReset = false)
    (hi : s.inputs = ⟨.write (s.cfg.ledBase + 0x04) 4 v, n⟩ :: rest) :
    ∃ t, step s = .next t ∧ ((t.err = s.err ∧ t.errCode = s.errCode) ∨ (t.err = false ∧ t.errCode = .none)) := by
  obtain ⟨t, hstep, herr, hcode⟩ := exists_step_errors (statusWriteClearsDoneAndTheError s v n rest hc hr hi)
  cases hv : v.getLsbD 2 <;> simp only [hv] at herr hcode
  · exact ⟨t, hstep, .inl ⟨herr, hcode⟩⟩
  · exact ⟨t, hstep, .inr ⟨herr, hcode⟩⟩

/-- Settles O11: the six registers reject while busy; STATUS, IRQEN and the registers that ignore writes have their own rules; a read only answers. -/
theorem writesWhileBusyAreRejectedAndOthersNever : Obligations.WritesWhileBusyAreRejectedAndOthersNever := by
  unfold Obligations.WritesWhileBusyAreRejectedAndOthersNever
  intro s n rest hc hr
  refine ⟨fun off v hoff hb hi => ?_, fun off v hoff hi => ?_, fun off hlt halign hi => ?_⟩
  · have hmap : ∀ off ∈ [0x00, 0x10, 0x14, 0x18, 0x1C, 0x20],
        off < 64 ∧ off % 4 = 0 ∧ regAt off ∈ [Reg.ctrl, .stateHi, .stateLo, .keyHi, .keyMid, .keyLo] := by decide
    obtain ⟨hlt, halign, hreg⟩ := hmap off hoff
    rw [step_write hc hr hlt halign hi, busWrite_busy hreg (by exact hb)]
    rfl
  · obtain rfl | hoff := List.mem_cons.mp hoff
    · obtain ⟨t, hstep, hkept | hcleared⟩ := step_write_status_errors hc hr hi
      · exact ⟨t, hstep, .inl hkept⟩
      · exact ⟨t, hstep, .inr ⟨rfl, hcleared⟩⟩
    obtain rfl | hoff := List.mem_cons.mp hoff
    · obtain ⟨t, hstep, hkept⟩ := exists_step_errors (irqenWriteStoresTheTwoEnables s v n rest hc hr hi)
      exact ⟨t, hstep, .inl hkept⟩
    · obtain ⟨t, hstep, hkept⟩ := exists_step_errors (writesToReadOnlyAndReservedOffsetsAreIgnored s off v n rest hc hr hoff hi)
      exact ⟨t, hstep, .inl hkept⟩
  · simpa using exists_step_errors (step_read hc hr hlt halign hi)

end Sys2Proof.Machine
end

section
/-! PROOFS. Reset: what the reset input does while it rises, falls and stays high (O22, O23), the state after it (O24, O46), and the first command after it (O25). -/

namespace Sys2Proof.Machine

/-! ### The state after reset (R195) -/

theorem atReset_atResetTable (cfg : Config) (sv : Block) (kv : Key) (gfres : Nibble) : (State.atReset cfg sv kv gfres).AtResetTable :=
  ⟨rfl, rfl, rfl, rfl, rfl, rfl, rfl, rfl, rfl, rfl⟩

/-- STATUS reads 0 at the reset table's values. -/
theorem State.AtResetTable.statusWord {s : State} (h : s.AtResetTable) : s.statusWord = 0#32 := by
  rw [State.statusWord, h.irq, h.errCode, h.err, h.done, h.busy]
  decide

/-- Settles O46: the reset table meets the invariant. -/
theorem resetStateMeetsTheInvariant : Obligations.ResetStateMeetsTheInvariant :=
  (atReset_atResetTable ..).inv

/-- Settles O24: `State.reset` is at the reset table, and its configuration is the default one. -/
theorem resetStateHasTheControlValuesOfTheTable : Obligations.ResetStateHasTheControlValuesOfTheTable := by
  have htable : State.reset.AtResetTable := atReset_atResetTable ..
  have hcfg : configOk State.reset.cfg = true := by decide +kernel
  exact ⟨htable.busy, htable.done, htable.err, htable.errCode, htable.doneIe, htable.errIe, htable.rcnt, htable.kcnt,
    htable.cur, htable.seq, htable.irq, rfl, htable.statusWord, hcfg⟩

/-! ### The reset input (R195, R196) -/

/-- A rise of a low input puts the reset table in place, with a free draw for each data register. -/
theorem assertReset_of_low {s : State} (hr : s.inReset = false) :
    s.assertReset =
      { State.atReset s.cfg (Config.freeBlock s.draws) (Config.freeKey s.draws) (Config.freeNibble s.draws) with
        inReset := true, inputs := s.inputs, grant := s.grant, responses := s.responses, draws := s.draws + 1 } :=
  if_neg (by simp [hr])

/-- A rise of a high input changes nothing. -/
theorem assertReset_of_high {s : State} (hr : s.inReset = true) : s.assertReset = s :=
  if_pos hr

/-- A fall of a low input changes nothing. -/
theorem releaseReset_of_low {s : State} (hr : s.inReset = false) : s.releaseReset = s := by
  rw [State.releaseReset, ← hr]

/-- While the input is high, no event takes the control state from the reset table. -/
theorem HostEffect.atResetTable {s u : State} (hu : HostEffect s u) (hr : s.inReset = true) (h : s.AtResetTable) : u.AtResetTable := by
  cases hu with
  | same => exact h
  | respond v => exact h.frame s.sv s.kv s.gfres s.inReset s.inputs s.grant (v :: s.responses) s.draws
  | respondFree m =>
    exact h.frame s.sv s.kv s.gfres s.inReset s.inputs s.grant ((Config.freeWord s.draws &&& m) :: s.responses) (s.draws + 1)
  | assertReset => rwa [assertReset_of_high hr]
  | releaseReset => exact h.frame s.sv s.kv s.gfres false s.inputs s.grant s.responses s.draws
  | reject _ _ hlow | accept _ _ _ hlow | status _ hlow | irqen _ hlow | state _ _ hlow | key _ _ hlow => simp [hr] at hlow

/-- The engine is idle at the reset table and makes nothing of its grant. -/
theorem State.AtResetTable.runGrant {s : State} (h : s.AtResetTable) : s.runGrant.AtResetTable := by
  rw [runGrant_idle h.busy]
  exact h.frame s.sv s.kv s.gfres s.inReset s.inputs 0 s.responses s.draws

/-- A step under a high reset input that goes on, the release among them, stays at the reset table. -/
theorem step_atResetTable {s t : State} (hr : s.inReset = true) (h : s.AtResetTable) (hstep : step s = .next t) : t.AtResetTable := by
  obtain ⟨-, ⟨-, rfl⟩ | ⟨e, n, rest, u, -, hu, rfl⟩⟩ := step_cases hstep
  · rwa [engineStep_idle h.busy]
  · exact (hu.atResetTable hr (h.frame s.sv s.kv s.gfres s.inReset rest n s.responses s.draws)).runGrant

/-- Settles O22: a rise of a low input leaves an idle engine at the reset table, and under a high input every step stays there. -/
theorem resetInputGivesTheResetState : Obligations.ResetInputGivesTheResetState := by
  unfold Obligations.ResetInputGivesTheResetState
  intro s n rest hc
  refine ⟨fun hr hi => ?_, fun hr hb hi => ?_, fun hr hi => ?_, fun hr hi => ?_, fun hr hinv t hstep => ?_⟩
  · rw [step_turn hc hi, performEvent, assertReset_of_low (by exact hr), runGrant_idle rfl]
    rfl
  · rw [step_turn hc hi, performEvent, runGrant_idle (by exact hb)]
    rfl
  · rw [step_turn hc hi, performEvent, assertReset_of_high (by exact hr)]
  · rw [step_turn hc hi, performEvent, releaseReset_of_low (by exact hr)]
  · have htable := step_atResetTable hr (hinv.underReset hr) hstep
    exact ⟨htable.busy, htable.done, htable.err, htable.errCode, htable.doneIe, htable.errIe, htable.rcnt, htable.kcnt,
      htable.cur, htable.seq, htable.irq⟩

theorem target_inReset {s : State} (hr : s.inReset = true) (a width : Nat) : s.target a width = .stop .accessDuringReset :=
  if_pos hr

/-- Settles O23: the reset input is checked before the window, the width and the alignment. -/
theorem accessDuringResetIsRefused : Obligations.AccessDuringResetIsRefused := by
  unfold Obligations.AccessDuringResetIsRefused
  intro s a width n v rest hc hr hi
  have hanswer := step_answers_target hc ⟨n, rest, hi.imp_right fun h => ⟨v, h⟩⟩
  rwa [target_inReset hr] at hanswer

/-! ### The first command after reset (R197) -/

@[simp] theorem microSteps_err (i : Instr) (n : Nat) (s : State) : (s.microSteps i n).err = s.err := by
  induction n generalizing s with
  | zero => rfl
  | succ n ih => rw [microSteps_succ, ih, nextSeq_err, microStep_eq]

/-- 61 micro-steps are enough for every command (R150). -/
theorem nsteps_le (i : Instr) : nsteps i ≤ 61 := by cases i <;> simp [nsteps]

/-- The next turn of `withFetchWord` is the write of the word to CTRL, with the micro-steps of the longest command. -/
theorem withFetchWord_inputs (s : State) (w : Word) :
    (s.withFetchWord 32 w.toNat).inputs = ⟨.write s.cfg.ledBase 4 w, 61⟩ :: s.inputs := by
  simp [State.withFetchWord, commandTurn, Nat.mod_eq_of_lt w.isLt]

/-- An idle engine executes the command of the word that `withFetchWord` brings, with the micro-steps of the longest command. -/
theorem step_withFetchWord {s : State} {w : Word} {i : Instr} (hc : configOk s.cfg = true) (hr : s.inReset = false) (hb : s.busy = false)
    (hd : decode w = .command i) : step (s.withFetchWord 32 w.toNat) = exec i { s with grant := 61 } :=
  stepRunsTheDecodedCommand (s.withFetchWord 32 w.toNat) w i 61 s.inputs hc hr hb (withFetchWord_inputs s w) hd

/-- Settles O25: after reset the engine is idle, so the write to CTRL executes the decoded command, which completes when its turns are granted. -/
theorem engineAcceptsACommandRightAfterReset : Obligations.EngineAcceptsACommandRightAfterReset := by
  unfold Obligations.EngineAcceptsACommandRightAfterReset
  intro cfg sv kv g w i hc hd
  have hwf := decode_command_wf hd
  constructor
  · rw [stepRunsTheDecodedCommand { State.atReset cfg sv kv g with inputs := [⟨.write cfg.ledBase 4 w, 0⟩] } w i 0 [] hc rfl rfl rfl hd,
      exec_eq_issue, issue_accept rfl hwf, runGrant_zero rfl]
    exact ⟨_, rfl, rfl, rfl, rfl, rfl⟩
  · have herr (t : State) : (t.microSteps i (nsteps i)).complete.err = t.err := by simp
    rw [step_withFetchWord (s := State.atReset cfg sv kv g) hc rfl rfl hd, exec_completes hwf rfl (nsteps_le i)]
    exact ⟨_, rfl, rfl, rfl, rfl, herr _, by simp⟩

end Sys2Proof.Machine
end
